-- ==== Sys2Proof/Word.lean ====
section
/-! DEFINITION. The word types of the Mulpek 4160: bytes, register words, host addresses, and the numbers of its
lines, rings and request-table entries (00_scope 0.7, 0.8). -/

namespace Sys2Proof

/-- A byte of a record, a character's value. -/
abbrev Byte := BitVec 8

/-- A register of the register window (11 R185). -/
abbrev Word := BitVec 32

/-- A host address: 40 bits (00 0.7). -/
abbrev Addr := BitVec 40

/-- Lines are numbered 0 to 15 (00 0.8). -/
abbrev LineNo := Fin 16

/-- Submission queues SQ0 to SQ3 (00 0.8). -/
abbrev SqNo := Fin 4

/-- Completion queues CQ0 to CQ3 (00 0.8). -/
abbrev CqNo := Fin 4

/-- One of the 64 entries of the request table (01 R2). -/
abbrev Slot := Fin 64

/-- A submission record, or the 32 bytes of one descriptor read (01 1.1, 08 R137). -/
abbrev Record := Vector Byte 32

/-- The sixteen line numbers, in order. -/
def lineNumbers : List LineNo := [0, 1, 2, 3, 4, 5, 6, 7, 8, 9, 10, 11, 12, 13, 14, 15]

/-- The four ring numbers, in order. -/
def ringNumbers : List (Fin 4) := [0, 1, 2, 3]

end Sys2Proof
end

