-- ==== Sys2Proof/Syntax.lean ====
section
/-! DEFINITION. The commands of the block: one constructor of `Instr` per row of spec/opcode_table.json, with the
values that come from outside the part (register words, bytes read, transfer results, levels on input pins). -/

namespace Sys2Proof

/-- The end of a memory transfer that reads (10 R168): all its bytes, or BUS_ERROR. -/
inductive ReadEnd (α : Type) where
  | ok (data : α)
  | busError
  deriving DecidableEq, Repr

/-- The end of a memory transfer that writes (10 R168). -/
inductive WriteEnd where
  | ok
  | busError
  deriving DecidableEq, Repr

/-- The bytes of a register word that an access of any width takes (11 R185): bit k is the byte of bits 8k to 8k + 7. -/
abbrev Lanes := BitVec 4

/-- An access of the whole word (11 R185). -/
def Lanes.word : Lanes := 0b1111#4

/-- The registers that are read only (11 R185, Table 11.5). -/
inductive ReadOnlyRegister where
  | ident
  | claim
  | inservice
  deriving DecidableEq, Repr

/-- The writes that the register window ignores in every state, setting no flag (11 R185): of a read-only register,
of an offset 28H + 4k, and of part of a word at offset 4k. (DESIGN CHOICE, safe: notes/assumptions/23.md). -/
inductive IgnoredWrite where
  | readOnly (r : ReadOnlyRegister) (value : Word)
  | unassigned (k : Fin 6) (value : Word)
  | partialWord (k : Fin 16) (lanes : Lanes) (value : Word)
  deriving DecidableEq, Repr

/-- The commands of the block. `n` is a line; `level` a level read on RXD, true for mark (1); `cts` the level of CTS
when the transmitter comes to read it, true for asserted. `upper` is bits 8 to 31 of a CONTROL write, which no field
names (11 R185). (DESIGN CHOICE, safe: notes/assumptions/1.md, 23.md, 26.md). -/
inductive Instr where
  | start (upper : BitVec 24)
  | stop (upper : BitVec 24)
  | reset (upper : BitVec 24)
  | controlUnknownCommand (value : Word)
  | controllerResetTake
  | deviceResetAssert
  | deviceResetRelease
  | statusWrite (value : Word)
  | qbaseLoWrite (value : Word)
  | qbaseHiWrite (value : Word)
  | post (value : Word)
  | release (value : Word)
  | claim (lanes : Lanes)
  | endserv (value : Word)
  | registerWriteIgnored (w : IgnoredWrite)
  | descriptorReadEnd (e : ReadEnd Record)
  | fetchIssue
  | recordFetchEnd (e : ReadEnd Record)
  | fenceWaitSetEmpty (q : SqNo)
  | configureLine (n : LineNo)
  | enableLine (n : LineNo)
  | disableLine (n : LineNo)
  | disabledStep (n : LineNo)
  | queryLine (n : LineNo)
  | abortLine (n : LineNo)
  | resumeRx (n : LineNo)
  | flushRx (n : LineNo)
  | reportWriteEnd (e : WriteEnd)
  | characterComplete (n : LineNo) (level : Bool)
  | idleGapTimerFire (n : LineNo)
  | fillerTakeEntry (n : LineNo)
  | rxBufferWriteEnd (n : LineNo) (e : WriteEnd)
  | txTakeRecord (n : LineNo)
  | txDataReadEnd (n : LineNo) (e : ReadEnd (List Byte)) (cts : Bool)
  | breakEnd (n : LineNo) (cts : Bool)
  | txCharacterSent (n : LineNo) (cts : Bool)
  | gapEnd (n : LineNo) (cts : Bool)
  | ctsAssert (n : LineNo)
  | ctsWaitTimeout (n : LineNo)
  | pollTakeRecord (n : LineNo)
  | guardEnd (n : LineNo)
  | pollTakeEntry (n : LineNo)
  | replyTimeout (n : LineNo)
  | replyGapFire (n : LineNo)
  | replyWriteEnd (n : LineNo) (e : WriteEnd)
  | attemptEnd (n : LineNo)
  | eventOffer (n : LineNo)
  | backlogGrant
  | writerTakeEntry
  | completionWriteEnd (e : WriteEnd)
  | drainComplete
  | portGrant
  | delayTimerExpire (q : CqNo)
  | fallingEdge (n : LineNo)
  | startCheckSample (n : LineNo) (level : Bool)
  | dataBitSample (n : LineNo) (level : Bool)
  | waitMarkEnd (n : LineNo)
  | awaitEntry (n : LineNo)
  deriving DecidableEq, Repr

end Sys2Proof
end

