-- ==== Sys2Proof/WellFormed.lean ====
section
/-! DEFINITION. Which commands are well formed: the checks on operands that their types do not make. -/

namespace Sys2Proof

/-- The command code of a CONTROL write, bits 0 to 7 (11 Table 11.6). -/
def controlCode (value : Word) : Nat := (value.extractLsb' 0 8).toNat

/-- A CONTROL command code that the part knows: 1 START, 2 STOP, 3 RESET (11 R186). -/
def knownControlCode (value : Word) : Bool :=
  controlCode value == 1 || controlCode value == 2 || controlCode value == 3

/-- A command is well formed: an unknown CONTROL command has a code other than 1, 2 and 3 (11 R186), a data or payload
read delivers 1 to 16 bytes (10 Table 10.1), a read of CLAIM takes at least one byte, and a write of part of a word
carries at least one byte and not all four (11 R185). -/
def Instr.wellFormed : Instr → Bool
  | .controlUnknownCommand value => !knownControlCode value
  | .txDataReadEnd _ (.ok bytes) _ => decide (1 ≤ bytes.length ∧ bytes.length ≤ 16)
  | .claim lanes => lanes != 0
  | .registerWriteIgnored (.partialWord _ lanes _) => lanes != 0 && lanes != .word
  | _ => true

end Sys2Proof
end

