-- ==== Sys2Proof/Decode.lean ====
section
/-! DEFINITION. Decoding. spec/opcode_table.json gives no bits for any row, so no word spells a command by the table;
what the part does decode is an access to its register window (11 R185, R186, Table 11.5). -/

namespace Sys2Proof

/-- The command that a word spells by the table's bits: none, for the table gives no row any bits
(notes/assumptions/25.md). -/
def decodeTableWord (_nbits _w : Nat) : Option Instr := none

/-- The command a full-word write to the register at offset 4k is (11 Table 11.5, R185, R186). -/
def registerWrite (k : Fin 16) (value : Word) : Instr :=
  match k.val with
  | 0 => .registerWriteIgnored (.readOnly .ident value)
  | 1 =>
    match controlCode value with
    | 1 => .start (value.extractLsb' 8 24)
    | 2 => .stop (value.extractLsb' 8 24)
    | 3 => .reset (value.extractLsb' 8 24)
    | _ => .controlUnknownCommand value
  | 2 => .statusWrite value
  | 3 => .qbaseLoWrite value
  | 4 => .qbaseHiWrite value
  | 5 => .post value
  | 6 => .release value
  | 7 => .registerWriteIgnored (.readOnly .claim value)
  | 8 => .endserv value
  | 9 => .registerWriteIgnored (.readOnly .inservice value)
  | j + 10 => .registerWriteIgnored (.unassigned (Fin.ofNat 6 j) value)

/-- The command a write of the bytes `lanes` of the word at offset 4k is: of the whole word the register's, of part of it
a write that is ignored (11 R185). -/
def registerWriteLanes (k : Fin 16) (lanes : Lanes) (value : Word) : Instr :=
  if lanes = .word then registerWrite k value else .registerWriteIgnored (.partialWord k lanes value)

end Sys2Proof
end

