-- ==== Sys2Proof/Config.lean ====
section
/-! DEFINITION. What the part fixes (sizes of its tables and FIFOs, IDENT) and the one value the spec leaves open. -/

namespace Sys2Proof.Config

/-- The completion backlog has 32 slots (01 R17). -/
def backlogSlots : Nat := 32

/-- The staging FIFO holds at most 8 entries (03 R52). -/
def stagingDepth : Nat := 8

/-- The transmit staging holds up to 16 bytes (05 5.3). -/
def transmitStaging : Nat := 16

/-- A write assembly holds at most 16 bytes (04 R75). -/
def assemblySize : Nat := 16

/-- Transfers and reads stop at 32-byte-aligned boundaries (10 R169). -/
def boundary : Nat := 32

/-- The top of the 40-bit address space, 10000000000H (04 R65). -/
def addressTop : Nat := 0x10000000000

/-- IDENT reads 3E416001H (11 R189). -/
def ident : Word := 0x3E416001#32

/-- FREE VALUE. Which of several offers made to the backlog at one moment is taken first: "either offer may be taken
first" (01 R17; also 02 R39 "may interleave in any way"). Applied to a counter of the state. It has no body, so no
proof can rest on the order (notes/assumptions/6.md). -/
opaque offerChoice : Nat → Nat

end Sys2Proof.Config
end

