-- ==== Sys2Proof/Machine/State.lean ====
section
/-! DEFINITION. The state of the Mulpek 4160: everything the spec gives the part, as plain data, and its value after a
device reset. The lists and registers follow INVENTORY.md's State section. -/

namespace Sys2Proof.Machine

/-! ### Reasons to stop -/

/-- Reasons for which a step stops with a fault. There is none: what the spec calls faults (11 R182), bus errors
(01 Table 1.6) and refused writes (11 R187) are states the part goes on from (notes/assumptions/24.md). Nothing raises
a fault, which is safe. -/
inductive Fault where
  deriving DecidableEq, Repr

/-- Reasons for which a step is refused. -/
inductive Refusal where
  /-- Raised by `exec` alone, for a command that has no meaning yet. Safe. No arm raises it. -/
  | notModelled (mnemonic : String)
  deriving DecidableEq, Repr

/-! ### Line records (02 Table 2.1) -/

inductive Mode where
  | stream
  | poll
  deriving DecidableEq, Repr

inductive DataBits where
  | seven
  | eight
  | nine
  deriving DecidableEq, Repr

inductive Parity where
  | off
  | even
  | odd
  deriving DecidableEq, Repr

inductive StopBits where
  | one
  | two
  deriving DecidableEq, Repr

inductive Flow where
  | off
  | hardware
  deriving DecidableEq, Repr

inductive ErrorPolicy where
  | keep
  | drop
  | close
  deriving DecidableEq, Repr

/-- A set of the five conditions, encoded as the event enable set is: bit 0 BREAK, 1 OVERRUN, 2 NO_BUFFER, 3 STRAY,
4 LINE_ERROR (11 Table 11.8). -/
abbrev EventSet := BitVec 5

/-- The conditions of 07 Table 7.1. -/
inductive Condition where
  | brk
  | overrun
  | noBuffer
  | stray
  | lineError
  deriving DecidableEq, Repr

/-- A line's configuration (02 Table 2.1). -/
structure LineRecord where
  configured : Bool
  mode : Mode
  divisor : BitVec 12
  dataBits : DataBits
  parity : Parity
  stopBits : StopBits
  flow : Flow
  idleGap : BitVec 8
  delimiter : Option Byte
  policy : ErrorPolicy
  guardTime : BitVec 4
  eventCq : CqNo
  enable : EventSet
  deriving DecidableEq, Repr

/-- The unconfigured record: every field at its first value in Table 2.1 (02 R25). -/
def LineRecord.unconfigured : LineRecord :=
  { configured := false, mode := .stream, divisor := 0, dataBits := .seven, parity := .off, stopBits := .one,
    flow := .off, idleGap := 0, delimiter := none, policy := .keep, guardTime := 0, eventCq := 0, enable := 0 }

/-! ### Submission records (01 Table 1.2, 11 Table 11.8) -/

/-- The kinds of Table 1.2. -/
inductive Kind where
  | configureLine
  | enableLine
  | disableLine
  | queryLine
  | abortLine
  | resumeRx
  | fence
  | send
  | postBuffer
  | flushRx
  | poll
  deriving DecidableEq, Repr

/-- The statuses of 01 Table 1.6. -/
inductive Status where
  | ok
  | badKind
  | badLine
  | badField
  | badState
  | wrongMode
  | lineDisabled
  | aborted
  | stopped
  | busError
  | noReply
  | replyError
  | ctsTimeout
  deriving DecidableEq, Repr

inductive AbortClass where
  | tx
  | rx
  | all
  deriving DecidableEq, Repr

/-- A line command with its body (02 2.5). -/
inductive LineCommand where
  | configure (r : LineRecord)
  | enable
  | disable
  | query (address : Addr)
  | abort (c : AbortClass)
  | resumeRx
  | flushRx
  deriving DecidableEq, Repr

/-- A SEND's body (05 Table 5.1). -/
structure SendBody where
  address : Addr
  length : Nat
  breakBefore : Nat
  gap : Nat
  markFirst : Bool
  ctsLimit : Nat
  deriving DecidableEq, Repr

/-- A POST_BUFFER's body (04 Table 4.1). -/
structure BufferBody where
  address : Addr
  capacity : Nat
  deriving DecidableEq, Repr

inductive ReplyEnd where
  | length
  | gap
  deriving DecidableEq, Repr

/-- A POLL's body (06 Table 6.1). -/
structure PollBody where
  station : Byte
  payloadAddress : Addr
  payloadLength : Nat
  replyAddress : Addr
  replyCapacity : Nat
  replyEnd : ReplyEnd
  replyGap : Nat
  timeout : Nat
  retries : Nat
  deriving DecidableEq, Repr

/-- A record of the POLL work list: a SEND or a POLL (06 R106). -/
inductive PollWork where
  | send (b : SendBody)
  | poll (b : PollBody)
  deriving DecidableEq, Repr

/-- What a unit composes when a record's work ends: status, count and detail (01 Table 1.3, `completion`). -/
structure Result where
  status : Status
  count : BitVec 16
  detail : Word
  deriving DecidableEq, Repr

/-- The phases of a listed entry (01 Table 1.4). A reserved entry has no header yet; DISPATCHED lasts only inside
RECORD_FETCH_END (01 R8). (DESIGN CHOICE, safe: notes/assumptions/9.md; DEDUCED, safe: 28.md). -/
inductive Phase where
  | listed
  | active
  | finishing (r : Result)
  deriving DecidableEq, Repr

/-- A member of a control list or data list: its request-table entry, its phase and its record's body. -/
structure Member (β : Type) where
  slot : Slot
  phase : Phase
  body : β
  deriving DecidableEq, Repr

/-! ### Request table (01 1.2) -/

/-- What a request-table entry takes from its record's header (01 Table 1.3). -/
structure Header where
  tag : BitVec 16
  kind : Byte
  line : Option LineNo
  urgent : Bool
  deriving DecidableEq, Repr

/-- A request-table entry in use; it has no header while it is reserved (01 R3). -/
structure Entry where
  sq : SqNo
  cq : CqNo
  header : Option Header
  deriving DecidableEq, Repr

/-- A FENCE held for its SQ: its entry, its wait set, and the number of entries the wait set was formed with (01 R14). -/
structure Fence where
  slot : Slot
  waitSet : List Slot
  count : Nat
  deriving DecidableEq, Repr

/-! ### Completion backlog (01 1.6) -/

/-- The producers of 01 Table 1.8. `data n` is the buffer filler or the poll engine of line n. -/
inductive Producer where
  | dispatcher
  | fence
  | control (n : LineNo)
  | data (n : LineNo)
  | transmitter (n : LineNo)
  | event (n : LineNo)
  deriving DecidableEq, Repr

/-- The fields of a completion but for the lap bit (01 Table 1.7). -/
structure Completion where
  tag : BitVec 16
  kind : Byte
  status : Status
  line : LineNo
  sq : SqNo
  count : BitVec 16
  detail : Word
  deriving DecidableEq, Repr

/-- What a backlog slot holds (01 R17). -/
inductive BacklogEntry where
  | completion (cq : CqNo) (urgent : Bool) (c : Completion)
  | event (cq : CqNo) (n : LineNo)
  deriving DecidableEq, Repr

/-- The backlog: its entries oldest first, the producers waiting, and the position last granted (01 R17, R20, R21). -/
structure Backlog where
  entries : List BacklogEntry
  waiting : List Producer
  lastGranted : Producer
  deriving DecidableEq, Repr

/-! ### Memory port (10) -/

/-- The kinds of transfer of 10 Table 10.1, each with whom it belongs to. -/
inductive TransferKind where
  | descriptorRead (k : Fin 4)
  | recordFetch (q : SqNo) (slot : Slot)
  | txDataRead (n : LineNo)
  | payloadRead (n : LineNo)
  | rxBufferWrite (n : LineNo)
  | replyWrite (n : LineNo)
  | reportWrite (n : LineNo)
  | completionWrite (q : CqNo)
  deriving DecidableEq, Repr

/-- Where a transfer goes, how long it is, and a write's bytes (10 R169).
(DESIGN CHOICE, safe: notes/assumptions/5.md). -/
structure Extent where
  address : Addr
  size : Nat
  bytes : List Byte
  deriving DecidableEq, Repr

structure Transfer where
  kind : TransferKind
  extent : Extent
  deriving DecidableEq, Repr

/-- The round-robin requesters of 10 Table 10.2. -/
inductive PortRequester where
  | fetcher
  | line (n : LineNo)
  | report
  deriving DecidableEq, Repr

/-- The port: the transfer in flight and the requester last granted by round-robin (10 R168). The requests that wait
are the units' own outstanding transfers (10 R170). -/
structure Port where
  inFlight : Option Transfer
  last : PortRequester
  deriving DecidableEq, Repr

/-! ### Rings (08) -/

/-- An SQ descriptor (08 Table 8.1); size 0 is unused. -/
structure SqDescriptor where
  base : Addr
  size : Nat
  cq : CqNo
  weight : Nat
  deriving DecidableEq, Repr

inductive NotifyLevel where
  | one
  | two
  | three
  | four
  deriving DecidableEq, Repr

/-- A CQ descriptor (08 Table 8.2); size 0 is unused. -/
structure CqDescriptor where
  base : Addr
  size : Nat
  level : NotifyLevel
  notify : Bool
  threshold : Nat
  delay : Nat
  deriving DecidableEq, Repr

/-- A loaded descriptor block (08 R139). -/
structure Block where
  sqs : Vector SqDescriptor 4
  cqs : Vector CqDescriptor 4
  deriving DecidableEq, Repr

/-- The fetcher's view of an SQ (08 R140). -/
structure SqRing where
  head : Nat
  tail : Nat
  deriving DecidableEq, Repr

/-- The ring fetcher (08 R137, R140 to R143). `kept` is the descriptor bytes read so far. -/
structure Fetcher where
  rings : Vector SqRing 4
  turn : SqNo
  credit : Nat
  outstanding : Option Transfer
  kept : List Byte
  deriving DecidableEq, Repr

/-- The writer's view of a CQ (08 R147). -/
structure CqRing where
  tail : Nat
  lap : Bool
  occupancy : Nat
  deriving DecidableEq, Repr

/-- The completion writer (08 R147, R148). -/
structure Writer where
  rings : Vector CqRing 4
  lastServed : CqNo
  outstanding : Option Transfer
  deriving DecidableEq, Repr

/-! ### Notification unit (09) -/

/-- A CQ's notification items (09 Table 9.1). A running timer holds the ticks from its start to its expiry.
(DESIGN CHOICE, safe: notes/assumptions/4.md). -/
structure CqNotice where
  newCount : Nat
  timer : Option Nat
  flag : Bool
  deriving DecidableEq, Repr

/-- The notification unit. Bit n - 1 of `inService` is the membership of level n (09 R158, R165). -/
structure Notification where
  cqs : Vector CqNotice 4
  inService : BitVec 5
  faultRequest : Bool
  pin : Bool
  deriving DecidableEq, Repr

/-! ### Lines: receiver (03) -/

inductive RxState where
  | off
  | hunt
  | startCheck
  | bits
  | stopCheck
  | waitMark
  deriving DecidableEq, Repr

inductive CloseMark where
  | idleGap
  | flush
  deriving DecidableEq, Repr

/-- A staging entry (03 Table 3.6). -/
structure Staged where
  value : Byte
  mark : Bool
  framing : Bool
  parity : Bool
  brk : Bool
  close : Option CloseMark
  deriving DecidableEq, Repr

/-- The receiver. `read` is the bits of the character in progress read so far, first bit first; `sample` its last
sample read, counted with the falling edge as sample 1 (03 Table 3.3); `idleTimer` a running timer's span in samples.
(The levels on input pins at reset: DESIGN CHOICE, not safe: notes/assumptions/12.md). -/
structure Receiver where
  state : RxState
  read : List Bool
  sample : Nat
  fifo : List Staged
  held : Bool
  lost : Nat
  stray : Nat
  idleTimer : Option Nat
  armed : Bool
  rxd : Bool
  deriving DecidableEq, Repr

/-! ### Lines: buffer filler (04) -/

inductive FillerState where
  | idle
  | filling
  | closing
  | offering
  deriving DecidableEq, Repr

/-- The close reasons, in the order of their numbers 0 to 7 (04 R77). -/
inductive CloseReason where
  | none
  | full
  | delimiter
  | idleGap
  | errorChar
  | brk
  | address
  | flush
  deriving DecidableEq, Repr

/-- The flush record: the flushed buffer; the number of staging entries ahead of the one its FLUSH mark was placed on
(none when the buffer was closed at once); whether it closed at the marked entry (04 R81, R82). -/
structure FlushRecord where
  slot : Slot
  ahead : Option Nat
  atMark : Bool
  deriving DecidableEq, Repr

/-- The buffer filler: the RX buffer list, its state and the head buffer's progress (04 opening). `endStatus` is the
status an abort, STOP or DISABLE has decided for the head buffer (04 R83 to R85). -/
structure Filler where
  list : List (Member BufferBody)
  state : FillerState
  fill : Nat
  written : Nat
  errors : Nat
  dropped : Nat
  firstMarked : Bool
  reason : CloseReason
  endStatus : Option Status
  assembly : List Byte
  outstanding : Option Extent
  flush : Option FlushRecord
  deriving DecidableEq, Repr

/-! ### Lines: transmitter (05) -/

inductive TxState where
  | idle
  | brk
  | load
  | send
  | gap
  | ctsWait
  deriving DecidableEq, Repr

/-- What TXD is driven with: mark; a break's space of so many samples and then one bit time of mark (05 R95); or the
bits of a frame, 16 samples each, first bit first (05 R94). (DESIGN CHOICE, safe: notes/assumptions/13.md). -/
inductive TxdDrive where
  | mark
  | breakThenMark (samples : Nat)
  | frame (bits : List Bool)
  deriving DecidableEq, Repr

/-- The character work the transmitter carries out: a SEND, or the request of a poll attempt, whose station address
goes out first (05 R90, R105). -/
structure TxJob where
  send : SendBody
  station : Option Byte
  deriving DecidableEq, Repr

/-- The transmitter (05 opening). `endCause` is the record's end once decided: its status and the transmitter state in
which it was decided (05 R99). (The level of CTS at reset: DESIGN CHOICE, not safe: notes/assumptions/12.md). -/
structure Transmitter where
  list : List (Member SendBody)
  state : TxState
  job : Option TxJob
  readOffset : Nat
  sent : Nat
  bytesRead : Nat
  breakDone : Bool
  staging : List Byte
  outstanding : Option Extent
  ctsTimer : Option Nat
  gapTimer : Option Nat
  busError : Bool
  endCause : Option (Status × TxState)
  txd : TxdDrive
  cts : Bool
  deriving DecidableEq, Repr

/-! ### Lines: poll engine (06) -/

inductive AttemptState where
  | none
  | guard
  | request
  | release
  | await
  | reply
  | settle
  deriving DecidableEq, Repr

/-- The outcomes of 06 Table 6.3, in the order of their codes 0 to 7. -/
inductive PollOutcome where
  | none
  | ok
  | noStart
  | addressMismatch
  | framing
  | collision
  | overlong
  | truncated
  deriving DecidableEq, Repr

/-- The poll engine (06 opening). `outcome` is the current attempt's outcome once decided; bit c - 1 of `seen` is the
outcome of code c; `endStatus` is the record's status once its end is decided. -/
structure PollEngine where
  list : List (Member PollWork)
  attempt : AttemptState
  attemptNumber : Nat
  outcome : PollOutcome
  lastOutcome : PollOutcome
  seen : BitVec 7
  fill : Nat
  written : Nat
  assembly : List Byte
  outstanding : Option Extent
  window : Bool
  quiet : Bool
  guardSpan : Option Nat
  replyTimer : Option Nat
  gapTimer : Option Nat
  tail : Option Nat
  stopFlag : Bool
  endStatus : Option Status
  deriving DecidableEq, Repr

/-! ### Lines: line control unit (02) and the whole line -/

inductive LineState where
  | disabled
  | enabled
  | disabling
  deriving DecidableEq, Repr

/-- How far the command at the head of the control list has come: not yet taken; an ABORT_LINE waiting for the
completions of the entries it aborted, with its count (02 R39); a DISABLE_LINE waiting for the lists to empty, with its
count (02 R36); a QUERY_LINE waiting for its report (02 R37); a FLUSH_RX waiting for the filler to take it up, or for
the flushed buffer's completion (04 R81, R82). -/
inductive CommandProgress where
  | untaken
  | abort (waitFor : List Slot) (count : Nat)
  | disable (count : Nat)
  | query
  | flushHanded
  | flush
  deriving DecidableEq, Repr

/-- The event unit (07 opening); its offer in progress is its membership in the backlog's waiting producers. -/
structure EventUnit where
  pending : EventSet
  queued : Bool
  deriving DecidableEq, Repr

/-- A line: everything of 00 Table 0.1 that exists once for each line. `rate` is the reference periods to a sample
while the rate generator runs (02 R27). -/
structure Line where
  record : LineRecord
  state : LineState
  control : List (Member LineCommand)
  progress : CommandProgress
  rate : Option Nat
  rx : Receiver
  filler : Filler
  tx : Transmitter
  poll : PollEngine
  event : EventUnit
  rts : Bool
  de : Bool
  deriving DecidableEq, Repr

/-- A receiver at rest: OFF, nothing staged, not HELD (03 Table 3.10). -/
def Receiver.rest : Receiver :=
  { state := .off, read := [], sample := 0, fifo := [], held := false, lost := 0, stray := 0, idleTimer := none,
    armed := false, rxd := true }

/-- A filler at rest: IDLE with an empty list (04 R67, R86). -/
def Filler.rest : Filler :=
  { list := [], state := .idle, fill := 0, written := 0, errors := 0, dropped := 0, firstMarked := false,
    reason := .none, endStatus := none, assembly := [], outstanding := none, flush := none }

/-- A transmitter at rest: IDLE with TXD at mark (05 Table 5.5). -/
def Transmitter.rest : Transmitter :=
  { list := [], state := .idle, job := none, readOffset := 0, sent := 0, bytesRead := 0, breakDone := false,
    staging := [], outstanding := none, ctsTimer := none, gapTimer := none, busError := false, endCause := none,
    txd := .mark, cts := false }

/-- A poll engine at rest: attempt state NONE (06 Table 6.7). -/
def PollEngine.rest : PollEngine :=
  { list := [], attempt := .none, attemptNumber := 0, outcome := .none, lastOutcome := .none, seen := 0, fill := 0,
    written := 0, assembly := [], outstanding := none, window := false, quiet := false, guardSpan := none,
    replyTimer := none, gapTimer := none, tail := none, stopFlag := false, endStatus := none }

/-- A line after a reset: unconfigured, DISABLED, counts and pending bits 0 (02 R25, R43, 11 R183). -/
def Line.rest : Line :=
  { record := .unconfigured, state := .disabled, control := [], progress := .untaken, rate := none, rx := .rest,
    filler := .rest, tx := .rest, poll := .rest, event := { pending := 0, queued := false }, rts := false, de := false }

/-! ### Controller (11) -/

inductive ControllerState where
  | stopped
  | loading
  | running
  | draining
  | faulted
  deriving DecidableEq, Repr

/-- The fault codes of 11 Table 11.3. -/
inductive FaultCode where
  | none
  | descriptorRead
  | descriptorInvalid
  | sqFetch
  | cqWrite
  deriving DecidableEq, Repr

inductive FaultSource where
  | none
  | sq (q : SqNo)
  | cq (q : CqNo)
  deriving DecidableEq, Repr

inductive ResetCause where
  | power
  | control
  deriving DecidableEq, Repr

/-- The controller state machine and the register window. `loadEnding`: a STOP was written in LOADING (11 R179).
`resetWaits`: a controller reset has begun and is not yet taken (11 R183). `resetHigh`: the level of RESETn.
`busWord`: the word the last CLAIM read put on the host bus (the model's own, notes/assumptions/10.md). -/
structure Controller where
  state : ControllerState
  loadEnding : Bool
  faultCode : FaultCode
  faultSource : FaultSource
  misplacedWrite : Bool
  rangeError : Bool
  cause : ResetCause
  qbase : Addr
  resetWaits : Bool
  resetHigh : Bool
  busWord : Word
  deriving DecidableEq, Repr

/-! ### Report writer (02 R38) -/

/-- A snapshot handed to the report writer, as the write that carries it. -/
structure Report where
  line : LineNo
  extent : Extent
  deriving DecidableEq, Repr

/-! ### The whole part -/

/-- The state of the part, and the queue of commands that wait (`pending`, first in, first out). `dispatched` is the
dispatcher's FINISHING entries (01 R8); `fences` the FENCE each SQ is held by and `fencesDone` the FINISHING FENCEs
(01 R14, R15); `offersMade` counts the uses of the free value `Config.offerChoice` (notes/assumptions/6.md). -/
structure State where
  ctl : Controller
  block : Option Block
  fetcher : Fetcher
  table : Vector (Option Entry) 64
  dispatched : List (Slot × Result)
  fences : Vector (Option Fence) 4
  fencesDone : List (Slot × Result)
  backlog : Backlog
  writer : Writer
  notice : Notification
  reports : List Report
  port : Port
  lines : Vector Line 16
  offersMade : Nat
  pending : List Instr
  deriving DecidableEq, Repr

/-- The fetcher after a reset (08 Table 8.3). -/
def Fetcher.rest : Fetcher :=
  { rings := Vector.replicate 4 { head := 0, tail := 0 }, turn := 3, credit := 0, outstanding := none, kept := [] }

/-- The completion writer after a reset (08 Table 8.4). -/
def Writer.rest : Writer :=
  { rings := Vector.replicate 4 { tail := 0, lap := true, occupancy := 0 }, lastServed := 3, outstanding := none }

/-- The notification unit after a reset (09 Table 9.4). -/
def Notification.rest : Notification :=
  { cqs := Vector.replicate 4 { newCount := 0, timer := none, flag := false }, inService := 0, faultRequest := false,
    pin := false }

/-- The backlog after a reset: empty, last granted position 66 (01 R17, R21). -/
def Backlog.rest : Backlog := { entries := [], waiting := [], lastGranted := .event 15 }

/-- The port after a reset: no transfer, round-robin position 18 (10 R168). -/
def Port.rest : Port := { inFlight := none, last := .report }

/-- The part after a device reset, RESETn high again (11 R184): every block at its reset value, QBASE 0, last reset
cause POWER. -/
def State.reset : State :=
  { ctl :=
      { state := .stopped, loadEnding := false, faultCode := .none, faultSource := .none, misplacedWrite := false,
        rangeError := false, cause := .power, qbase := 0, resetWaits := false, resetHigh := true, busWord := 0 },
    block := none, fetcher := .rest, table := Vector.replicate 64 none, dispatched := [],
    fences := Vector.replicate 4 none, fencesDone := [], backlog := .rest, writer := .rest, notice := .rest,
    reports := [], port := .rest, lines := Vector.replicate 16 .rest, offersMade := 0, pending := [] }

end Sys2Proof.Machine
end

