-- ==== Sys2Proof/Machine/Operands.lean ====
section
/-! DEFINITION. The forms in which work reaches the part and leaves it: submission records and their validation,
descriptor blocks and their examination, completions and line reports as bytes (11 11.6, 01 1.3.1, 08 8.1). -/

namespace Sys2Proof.Machine

/-! ### Bytes, least significant first (11 R190) -/

/-- The number that bytes spell, least significant first. -/
def leNat (bytes : List Byte) : Nat := bytes.foldr (fun b acc => b.toNat + 256 * acc) 0

/-- The low `size` bytes of a number, least significant first. -/
def leBytes : (size : Nat) → Nat → List Byte
  | 0, _ => []
  | size + 1, v => BitVec.ofNat 8 v :: leBytes size (v / 256)

/-- The number in the field of `size` bytes at `offset`. -/
def field (bytes : List Byte) (offset size : Nat) : Nat := leNat ((bytes.drop offset).take size)

/-- The reserved field of `size` bytes at `offset` is zero. -/
def reservedZero (bytes : List Byte) (offset size : Nat) : Bool :=
  ((bytes.drop offset).take size).all (· == 0#8)

/-- A 40-bit address field: bits 40 to 63 zero, and `length` bytes from it not past the top of the address space
(04 R65, 05 R87, 06 R107). -/
def areaAt (bytes : List Byte) (offset length : Nat) : Option Addr :=
  let a := field bytes offset 8
  if a < Config.addressTop ∧ a + length ≤ Config.addressTop then some (BitVec.ofNat 40 a) else none

/-! ### Codes of 11 Table 11.8 and 01 Tables 1.2, 1.6 -/

def Kind.ofCode : Nat → Option Kind
  | 0x01 => some .configureLine
  | 0x02 => some .enableLine
  | 0x03 => some .disableLine
  | 0x04 => some .queryLine
  | 0x05 => some .abortLine
  | 0x06 => some .resumeRx
  | 0x07 => some .fence
  | 0x10 => some .send
  | 0x11 => some .postBuffer
  | 0x12 => some .flushRx
  | 0x13 => some .poll
  | _ => none

/-- SEND, POST_BUFFER and POLL are data records (01 1.1). -/
def Kind.isData : Kind → Bool
  | .send | .postBuffer | .poll => true
  | _ => false

/-- The kind of the completions made by event units (01 Table 1.2). -/
def eventKind : Byte := 0x20#8

def Status.code : Status → Nat
  | .ok => 0x00
  | .badKind => 0x01
  | .badLine => 0x02
  | .badField => 0x03
  | .badState => 0x04
  | .wrongMode => 0x05
  | .lineDisabled => 0x06
  | .aborted => 0x07
  | .stopped => 0x08
  | .busError => 0x09
  | .noReply => 0x0A
  | .replyError => 0x0B
  | .ctsTimeout => 0x0C

def Mode.ofCode : Nat → Option Mode
  | 0 => some .stream
  | 1 => some .poll
  | _ => none

def DataBits.ofCode : Nat → Option DataBits
  | 7 => some .seven
  | 8 => some .eight
  | 9 => some .nine
  | _ => none

def Parity.ofCode : Nat → Option Parity
  | 0 => some .off
  | 1 => some .even
  | 2 => some .odd
  | _ => none

def StopBits.ofCode : Nat → Option StopBits
  | 1 => some .one
  | 2 => some .two
  | _ => none

def Flow.ofCode : Nat → Option Flow
  | 0 => some .off
  | 1 => some .hardware
  | _ => none

def ErrorPolicy.ofCode : Nat → Option ErrorPolicy
  | 0 => some .keep
  | 1 => some .drop
  | 2 => some .close
  | _ => none

def AbortClass.ofCode : Nat → Option AbortClass
  | 1 => some .tx
  | 2 => some .rx
  | 3 => some .all
  | _ => none

def ReplyEnd.ofCode : Nat → Option ReplyEnd
  | 1 => some .length
  | 2 => some .gap
  | _ => none

/-! ### Bodies (11 Table 11.8) -/

/-- A record's body as the dispatcher reads it. -/
inductive Body where
  | command (c : LineCommand)
  | fence
  | send (b : SendBody)
  | buffer (b : BufferBody)
  | poll (b : PollBody)
  deriving DecidableEq, Repr

/-- The size of a CQ's ring in the loaded block; 0 with no block loaded (08 R139). -/
def cqSize (block : Option Block) (q : CqNo) : Nat :=
  match block with
  | some b => b.cqs[q].size
  | none => 0

/-- The size of an SQ's ring in the loaded block; 0 with no block loaded (08 R139). -/
def sqSize (block : Option Block) (q : SqNo) : Nat :=
  match block with
  | some b => b.sqs[q].size
  | none => 0

/-- The checks of 02 R26 among the fields of a CONFIGURE_LINE and against the loaded block. -/
def configurationFits (block : Option Block) (r : LineRecord) : Bool :=
  (r.mode != .poll || (r.dataBits == .nine && r.flow == .off && r.idleGap == 0 && r.policy == .keep
    && r.delimiter == none))
  && (r.mode != .stream || r.guardTime == 0)
  && (r.dataBits != .nine || (r.parity == .off && r.delimiter == none))
  && (r.dataBits != .seven || r.delimiter.all (fun d => decide (d.toNat ≤ 0x7F)))
  && cqSize block r.eventCq != 0

/-- The delimiter of a CONFIGURE_LINE: delimiter enable in byte 17, the value in byte 18, zero if not enabled; none for
BAD_FIELD (02 R26). -/
def delimiterField (r : List Byte) : Option (Option Byte) :=
  match field r 17 1 with
  | 0 => if reservedZero r 18 1 then some none else none
  | 1 => some (some (BitVec.ofNat 8 (field r 18 1)))
  | _ => none

/-- A CONFIGURE_LINE's body; none for BAD_FIELD (02 R26, 11 R191). -/
def configureBody (block : Option Block) (r : List Byte) : Option LineRecord := do
  let mode ← Mode.ofCode (field r 8 1)
  let dataBits ← DataBits.ofCode (field r 9 1)
  let parity ← Parity.ofCode (field r 10 1)
  let stopBits ← StopBits.ofCode (field r 11 1)
  let flow ← Flow.ofCode (field r 14 1)
  let policy ← ErrorPolicy.ofCode (field r 15 1)
  let delimiter ← delimiterField r
  let record : LineRecord :=
    { configured := true, mode, divisor := BitVec.ofNat 12 (field r 12 2), dataBits, parity, stopBits, flow,
      idleGap := BitVec.ofNat 8 (field r 16 1), delimiter, policy, guardTime := BitVec.ofNat 4 (field r 19 1),
      eventCq := Fin.ofNat 4 (field r 20 1), enable := BitVec.ofNat 5 (field r 21 1) }
  if field r 12 2 ≤ 4095 ∧ field r 19 1 ≤ 15 ∧ field r 20 1 ≤ 3 ∧ field r 21 1 < 32 ∧ reservedZero r 22 10 ∧
      configurationFits block record then
    some record
  else
    none

/-- A QUERY_LINE's report address; none for BAD_FIELD (02 R37). -/
def queryBody (r : List Byte) : Option Addr :=
  let a := field r 8 8
  if a < Config.addressTop ∧ a % 32 = 0 ∧ reservedZero r 16 16 then some (BitVec.ofNat 40 a) else none

/-- An ABORT_LINE's class; none for BAD_FIELD (02 R39). -/
def abortBody (r : List Byte) : Option AbortClass :=
  if reservedZero r 9 23 then AbortClass.ofCode (field r 8 1) else none

/-- A SEND's body; none for BAD_FIELD (05 R87). -/
def sendBody (r : List Byte) : Option SendBody := do
  let length := field r 16 2
  let address ← areaAt r 8 length
  if 1 ≤ length ∧ length ≤ 4096 ∧ field r 18 1 ≤ 15 ∧ field r 20 1 ≤ 1 ∧ reservedZero r 22 10 then
    some { address, length, breakBefore := field r 18 1, gap := field r 19 1, markFirst := field r 20 1 == 1,
           ctsLimit := field r 21 1 }
  else
    none

/-- A POST_BUFFER's body; none for BAD_FIELD (04 R65). -/
def bufferBody (r : List Byte) : Option BufferBody := do
  let capacity := field r 16 2
  let address ← areaAt r 8 capacity
  if 1 ≤ capacity ∧ capacity ≤ 4096 ∧ reservedZero r 18 14 then some { address, capacity } else none

/-- A POLL's body; none for BAD_FIELD (06 R107, 11 R191). Byte 9: bits 0 to 3 retries, 4 to 5 reply end, 6 to 7
reserved. -/
def pollBody (r : List Byte) : Option PollBody := do
  let control := field r 9 1
  let payloadLength := field r 12 2
  let replyCapacity := field r 14 2
  let replyEnd ← ReplyEnd.ofCode (control / 16 % 4)
  let payloadAddress ← areaAt r 16 payloadLength
  let replyAddress ← areaAt r 24 replyCapacity
  if control < 64 ∧ control % 16 ≤ 7 ∧ payloadLength ≤ 256 ∧ replyCapacity ≤ 256 ∧ 1 ≤ field r 10 1 ∧
      1 ≤ field r 11 1 then
    some { station := BitVec.ofNat 8 (field r 8 1), payloadAddress, payloadLength, replyAddress, replyCapacity,
           replyEnd, replyGap := field r 10 1, timeout := field r 11 1, retries := control % 16 }
  else
    none

/-- A body of reserved bytes only (11 11.6.3). -/
def emptyBody (r : List Byte) (b : Body) : Option Body := if reservedZero r 8 24 then some b else none

/-- The body of a record of kind `k`; none for BAD_FIELD (11 Table 11.8, R191). -/
def parseBody (block : Option Block) (k : Kind) (r : List Byte) : Option Body :=
  match k with
  | .configureLine => (configureBody block r).map fun c => .command (.configure c)
  | .enableLine => emptyBody r (.command .enable)
  | .disableLine => emptyBody r (.command .disable)
  | .queryLine => (queryBody r).map fun a => .command (.query a)
  | .abortLine => (abortBody r).map fun c => .command (.abort c)
  | .resumeRx => emptyBody r (.command .resumeRx)
  | .fence => emptyBody r .fence
  | .send => (sendBody r).map .send
  | .postBuffer => (bufferBody r).map .buffer
  | .flushRx => emptyBody r (.command .flushRx)
  | .poll => (pollBody r).map .poll

/-- The header's flags hold no bit but URGENT, and its reserved bytes are zero (01 R1, R9). -/
def headerFits (r : List Byte) : Bool :=
  decide (field r 1 1 ≤ 1) && reservedZero r 3 1 && reservedZero r 6 2

/-- The checks of a body that depend on the line record (02 R39, R42). They are passed over on an unconfigured line
(01 R9). -/
def recordAdmits (l : LineRecord) (b : Body) : Bool :=
  !l.configured ||
    match b with
    | .command (.abort c) => l.mode == .stream || c == .all
    | .send s => (!s.markFirst || l.dataBits == .nine) && (s.ctsLimit == 0 || l.flow == .hardware)
    | _ => true

/-- The line's mode admits the kind (01 Table 1.5 step 4b); an unconfigured line admits every kind (01 R9). -/
def modeAdmits (l : LineRecord) (k : Kind) : Bool :=
  !l.configured ||
    match k with
    | .poll => l.mode == .poll
    | .postBuffer | .flushRx => l.mode == .stream
    | _ => true

/-! ### Validation (01 R9, Table 1.5) -/

/-- What the dispatcher decides about a record: refused with a status (and the record's line if it passed step 2), or
accepted. -/
inductive Verdict where
  | refused (s : Status) (line : Option LineNo)
  | accepted (line : Option LineNo) (b : Body)
  deriving DecidableEq, Repr

/-- Steps 3, 4a and 4b for a record whose line is `n`. -/
def lineVerdict (block : Option Block) (l : Line) (n : LineNo) (k : Kind) (r : List Byte) : Verdict :=
  match parseBody block k r with
  | none => .refused .badField (some n)
  | some b =>
    if !headerFits r || !recordAdmits l.record b then .refused .badField (some n)
    else if k.isData && l.state != .enabled then .refused .lineDisabled (some n)
    else if !modeAdmits l.record k then .refused .wrongMode (some n)
    else .accepted (some n) b

/-- The checks of 01 Table 1.5 in their order; the first that fails decides the status (01 R9). -/
def verdict (block : Option Block) (lines : Vector Line 16) (r : List Byte) : Verdict :=
  match Kind.ofCode (field r 0 1) with
  | none => .refused .badKind none
  | some .fence =>
    if headerFits r && reservedZero r 2 1 && reservedZero r 8 24 then .accepted none .fence
    else .refused .badField none
  | some k =>
    if h : field r 2 1 < 16 then lineVerdict block lines[field r 2 1] ⟨field r 2 1, h⟩ k r
    else .refused .badLine none

/-- The request-table header of a record (01 Table 1.3, R10): its line is there if the record passed step 2. -/
def headerOf (r : List Byte) (line : Option LineNo) : Header :=
  { tag := BitVec.ofNat 16 (field r 4 2), kind := BitVec.ofNat 8 (field r 0 1), line, urgent := field r 1 1 % 2 == 1 }

/-! ### Descriptor blocks (08 R138, 11 Table 11.11) -/

def NotifyLevel.ofCode : Nat → Option NotifyLevel
  | 1 => some .one
  | 2 => some .two
  | 3 => some .three
  | 4 => some .four
  | _ => none

def NotifyLevel.code : NotifyLevel → Nat
  | .one => 1
  | .two => 2
  | .three => 3
  | .four => 4

/-- The 16 bytes of the descriptor at `index`: SQ0 to SQ3 are 0 to 3, CQ0 to CQ3 are 4 to 7. -/
def descriptorBytes (bytes : List Byte) (index : Nat) : List Byte := (bytes.drop (16 * index)).take 16

def SqDescriptor.unused : SqDescriptor := { base := 0, size := 0, cq := 0, weight := 0 }

def CqDescriptor.unused : CqDescriptor :=
  { base := 0, size := 0, level := .one, notify := false, threshold := 0, delay := 0 }

/-- A used ring's size is 4 to 1024, its base a multiple of its slot size with bits 40 to 63 zero, and it does not
extend past the top of the address space (08 R138). -/
def ringFits (base size slotSize : Nat) : Bool :=
  decide (4 ≤ size ∧ size ≤ 1024 ∧ base % slotSize = 0 ∧ base < Config.addressTop ∧
    base + size * slotSize ≤ Config.addressTop)

/-- The size field of a CQ descriptor in the block being examined. -/
def cqSizeField (bytes : List Byte) (q : Nat) : Nat := field (descriptorBytes bytes (4 + q)) 8 2

/-- An SQ descriptor; none if it fails (08 R138). -/
def sqDescriptor (bytes : List Byte) (q : SqNo) : Option SqDescriptor :=
  let d := descriptorBytes bytes q.val
  let size := field d 8 2
  if size = 0 then some .unused
  else if ringFits (field d 0 8) size 32 ∧ field d 10 1 ≤ 3 ∧ cqSizeField bytes (field d 10 1) ≠ 0 ∧
      1 ≤ field d 11 1 ∧ field d 11 1 ≤ 8 ∧ reservedZero d 12 4 then
    some { base := BitVec.ofNat 40 (field d 0 8), size, cq := Fin.ofNat 4 (field d 10 1), weight := field d 11 1 }
  else none

/-- A CQ descriptor; none if it fails (08 R138). -/
def cqDescriptor (bytes : List Byte) (q : CqNo) : Option CqDescriptor :=
  let d := descriptorBytes bytes (4 + q.val)
  let size := field d 8 2
  if size = 0 then some .unused
  else
    match NotifyLevel.ofCode (field d 10 1) with
    | none => none
    | some level =>
      if ringFits (field d 0 8) size 16 ∧ field d 11 1 ≤ 1 ∧ 1 ≤ field d 12 1 ∧ field d 12 1 ≤ 64 ∧
          reservedZero d 14 2 then
        some { base := BitVec.ofNat 40 (field d 0 8), size, level, notify := field d 11 1 == 1,
               threshold := field d 12 1, delay := field d 13 1 }
      else none

/-- The examination of a descriptor block (08 R138): the block, or the fault source. -/
inductive Examination where
  | valid (b : Block)
  | invalid (source : FaultSource)
  deriving DecidableEq, Repr

/-- The first SQ descriptor that fails, then the first CQ descriptor that fails. -/
def firstFailure (bytes : List Byte) : Option FaultSource :=
  match ringNumbers.find? fun q => (sqDescriptor bytes q).isNone with
  | some q => some (.sq q)
  | none => (ringNumbers.find? fun q => (cqDescriptor bytes q).isNone).map .cq

/-- The block is examined whole, in the order SQ0 to SQ3, CQ0 to CQ3, and must have a used SQ (08 R138). -/
def examine (bytes : List Byte) : Examination :=
  match firstFailure bytes with
  | some source => .invalid source
  | none =>
    let b : Block :=
      { sqs := Vector.ofFn fun q => (sqDescriptor bytes q).getD .unused,
        cqs := Vector.ofFn fun q => (cqDescriptor bytes q).getD .unused }
    if ringNumbers.any fun q => b.sqs[q].size != 0 then .valid b else .invalid .none

/-! ### Completions and line reports as bytes (11 Tables 11.9, 11.12) -/

/-- The 16 bytes of a completion written with a lap bit (11 Table 11.9). -/
def completionBytes (c : Completion) (lap : Bool) : List Byte :=
  leBytes 2 c.tag.toNat ++ [c.kind, BitVec.ofNat 8 c.status.code,
    BitVec.ofNat 8 (c.line.val + 16 * c.sq.val + 128 * lap.toNat), 0#8]
    ++ leBytes 2 c.count.toNat ++ leBytes 4 c.detail.toNat ++ [0#8, 0#8, 0#8, 0#8]

def LineState.code : LineState → Nat
  | .disabled => 0
  | .enabled => 1
  | .disabling => 2

def Mode.code : Mode → Nat
  | .stream => 0
  | .poll => 1

def RxState.code : RxState → Nat
  | .off => 0
  | .hunt => 1
  | .startCheck => 2
  | .bits => 3
  | .stopCheck => 4
  | .waitMark => 5

def TxState.code : TxState → Nat
  | .idle => 0
  | .brk => 1
  | .load => 2
  | .send => 3
  | .gap => 4
  | .ctsWait => 5

def AttemptState.code : AttemptState → Nat
  | .none => 0
  | .guard => 1
  | .request => 2
  | .release => 3
  | .await => 4
  | .reply => 5
  | .settle => 6

/-- The 32 bytes of a line report: every field of 02 Table 2.9 as the line stands (02 R37, 11 Table 11.12). -/
def reportBytes (l : Line) : List Byte :=
  [BitVec.ofNat 8 l.record.configured.toNat, BitVec.ofNat 8 l.state.code, BitVec.ofNat 8 l.record.mode.code,
    BitVec.ofNat 8 l.rx.state.code, BitVec.ofNat 8 l.rx.fifo.length, BitVec.ofNat 8 l.rx.held.toNat]
    ++ leBytes 2 l.rx.lost
    ++ [BitVec.ofNat 8 l.rx.stray, BitVec.ofNat 8 l.event.pending.toNat, BitVec.ofNat 8 l.event.queued.toNat,
      BitVec.ofNat 8 l.tx.state.code, BitVec.ofNat 8 l.poll.attempt.code, BitVec.ofNat 8 l.tx.list.length,
      BitVec.ofNat 8 l.filler.list.length, BitVec.ofNat 8 l.poll.list.length, BitVec.ofNat 8 l.control.length]
    ++ List.replicate 15 0#8

end Sys2Proof.Machine
end

