-- ==== Sys2Proof/Machine/Flags.lean ====
section
/-! DEFINITION. Flags: event conditions and pending bits, the details of completions, STATUS and the other registers
that can be read, the in-service set, and the condition NOTIFY follows. -/

namespace Sys2Proof.Machine

/-! ### Saturating counts (00 0.7) -/

/-- A count that rises by `by_` and saturates at `cap`. -/
def saturate (cap n : Nat) : Nat := if n ≤ cap then n else cap

/-! ### Event conditions (07 R129) -/

/-- A condition's bit in an event set (11 Table 11.8, byte 21). -/
def Condition.bit : Condition → EventSet
  | .brk => 0b00001#5
  | .overrun => 0b00010#5
  | .noBuffer => 0b00100#5
  | .stray => 0b01000#5
  | .lineError => 0b10000#5

/-- A condition raised on a line sets its pending bit when it is in the line's event enable set (07 R129). -/
def raise (c : Condition) (l : Line) : Line :=
  { l with event := { l.event with pending := l.event.pending ||| (l.record.enable &&& c.bit) } }

/-! ### Details of completions (11 Table 11.10) -/

def CloseReason.code : CloseReason → Nat
  | .none => 0
  | .full => 1
  | .delimiter => 2
  | .idleGap => 3
  | .errorChar => 4
  | .brk => 5
  | .address => 6
  | .flush => 7

def PollOutcome.code : PollOutcome → Nat
  | .none => 0
  | .ok => 1
  | .noStart => 2
  | .addressMismatch => 3
  | .framing => 4
  | .collision => 5
  | .overlong => 6
  | .truncated => 7

/-- An outcome as a member of the outcomes seen (06 R121): bit code - 1; NONE is no member. -/
def PollOutcome.asSeen : PollOutcome → BitVec 7
  | .none => 0
  | o => 1#7 <<< (o.code - 1)

/-- SEND: bytes read in bits 0 to 12, break completed in bit 15, end state in bits 16 to 18, 0 for NONE. -/
def sendDetail (bytesRead : Nat) (breakDone : Bool) (endState : TxState) : Word :=
  BitVec.ofNat 32 (bytesRead + 32768 * breakDone.toNat + 65536 * endState.code)

/-- POST_BUFFER: close reason in bits 0 to 2, first-char-marked in bit 7, error count in bits 8 to 15, dropped count in
bits 16 to 23. -/
def bufferDetail (reason : CloseReason) (firstMarked : Bool) (errors dropped : Nat) : Word :=
  BitVec.ofNat 32 (reason.code + 128 * firstMarked.toNat + 256 * errors + 65536 * dropped)

/-- POLL: last outcome in bits 0 to 2, attempts used in bits 4 to 7, outcomes seen in bits 8 to 14. -/
def pollDetail (last : PollOutcome) (attempts : Nat) (seen : BitVec 7) : Word :=
  BitVec.ofNat 32 (last.code + 16 * attempts + 256 * seen.toNat)

/-- The results of a FLUSH_RX (04 R82). -/
inductive FlushResult where
  | closedAtMark
  | closedBeforeMark
  | nothingClosed
  deriving DecidableEq, Repr

def FlushResult.code : FlushResult → Nat
  | .closedAtMark => 1
  | .closedBeforeMark => 2
  | .nothingClosed => 3

/-- FLUSH_RX: result in bits 0 to 1, the flushed buffer's close reason (bits 0 to 2 of its detail) in bits 4 to 6. -/
def flushDetail (r : FlushResult) (flushedDetail : Word) : Word :=
  BitVec.ofNat 32 (r.code + 16 * (flushedDetail.toNat % 8))

/-- EVENT: captured bits in bits 0 to 4, stray-count snapshot in bits 8 to 15 (07 R133). -/
def eventDetail (captured : EventSet) (stray : Nat) : Word := BitVec.ofNat 32 (captured.toNat + 256 * stray)

/-! ### In-service set (09 R158, R165) -/

/-- The bit of level n, 1 to 5, in the in-service set. -/
def levelBit (n : Nat) : BitVec 5 := 1#5 <<< (n - 1)

/-- Level n is in service. -/
def inService (set : BitVec 5) (n : Nat) : Bool := 1 ≤ n && set.getLsbD (n - 1)

/-- The top: the largest member, or 0 (09 R158). -/
def topLevel (set : BitVec 5) : Nat :=
  if inService set 5 then 5 else if inService set 4 then 4 else if inService set 3 then 3
  else if inService set 2 then 2 else if inService set 1 then 1 else 0

/-! ### What CLAIM and NOTIFY look at (09 R160, R161) -/

/-- The CQ is notify-enabled in the loaded block; an unused CQ is not. -/
def notifyEnabled (block : Option Block) (q : CqNo) : Bool :=
  match block with
  | some b => b.cqs[q].size != 0 && b.cqs[q].notify
  | none => false

/-- The CQ's notification level in the loaded block; 0 with no block loaded. -/
def cqLevel (block : Option Block) (q : CqNo) : Nat :=
  match block with
  | some b => b.cqs[q].level.code
  | none => 0

/-- The fault request is eligible: set, and 5 not in service (09 R159). -/
def faultEligible (nt : Notification) : Bool := nt.faultRequest && !inService nt.inService 5

/-- The CQ may be claimed: notify-enabled, flagged, and of a level above the top (09 R161 case 2). -/
def claimable (block : Option Block) (nt : Notification) (q : CqNo) : Bool :=
  notifyEnabled block q && nt.cqs[q].flag && decide (topLevel nt.inService < cqLevel block q)

/-- The condition NOTIFY follows (09 R160). -/
def notifyCondition (block : Option Block) (nt : Notification) : Bool :=
  faultEligible nt || ringNumbers.any (claimable block nt)

/-- What a CLAIM read chooses (09 R161). -/
inductive Claim where
  | fault
  | cq (q : CqNo)
  | nothing
  deriving DecidableEq, Repr

/-- The better of two choices: the higher level, and of equal levels the one that stands first. -/
def betterCq (block : Option Block) (best : Option CqNo) (q : CqNo) : Option CqNo :=
  match best with
  | none => some q
  | some b => if cqLevel block b < cqLevel block q then some q else some b

/-- The claimable CQ of the highest level, and among those the lowest number (09 R161 case 2). -/
def bestCq (block : Option Block) (nt : Notification) : Option CqNo :=
  (ringNumbers.filter (claimable block nt)).foldl (betterCq block) none

/-- The choice of a CLAIM read (09 R161). -/
def claimChoice (block : Option Block) (nt : Notification) : Claim :=
  if faultEligible nt then .fault
  else
    match bestCq block nt with
    | some q => .cq q
    | none => .nothing

/-- The word a CLAIM read returns (11 Table 11.6, 09 Table 9.2): CQ in bits 0 to 1, level in 4 to 6, count in 8 to 14,
result in 16 to 17. -/
def claimWord (block : Option Block) (nt : Notification) : Claim → Word
  | .fault => BitVec.ofNat 32 (16 * 5 + 65536 * 2)
  | .cq q => BitVec.ofNat 32 (q.val + 16 * cqLevel block q + 256 * nt.cqs[q].newCount + 65536 * 1)
  | .nothing => 0

/-! ### The register window's reads (11 R185 to R189) -/

def ControllerState.code : ControllerState → Nat
  | .stopped => 0
  | .loading => 1
  | .running => 2
  | .draining => 3
  | .faulted => 4

def FaultCode.code : FaultCode → Nat
  | .none => 0
  | .descriptorRead => 1
  | .descriptorInvalid => 2
  | .sqFetch => 3
  | .cqWrite => 4

/-- The fault source number, STATUS bits 8 to 9 (11 Table 11.6): the SQ's or CQ's number. The table gives no number for
source NONE; the model reads 0 (DESIGN CHOICE: notes/assumptions/33.md). -/
def FaultSource.number : FaultSource → Nat
  | .none => 0
  | .sq q => q.val
  | .cq q => q.val

/-- The fault source kind, STATUS bits 10 to 11 (11 Table 11.6). -/
def FaultSource.kindCode : FaultSource → Nat
  | .none => 0
  | .sq _ => 1
  | .cq _ => 2

def ResetCause.code : ResetCause → Nat
  | .power => 0
  | .control => 1

/-- STATUS (11 Table 11.6, R187). -/
def statusWord (c : Controller) : Word :=
  BitVec.ofNat 32 (c.state.code + 16 * c.faultCode.code + 256 * c.faultSource.number + 1024 * c.faultSource.kindCode
    + 65536 * c.misplacedWrite.toNat + 131072 * c.rangeError.toNat + 16777216 * c.cause.code)

/-- INSERVICE: level n in bit n, the top in bits 8 to 10 (11 Table 11.6, 09 R165). -/
def inserviceWord (set : BitVec 5) : Word := BitVec.ofNat 32 (2 * set.toNat + 256 * topLevel set)

/-- What a read of the word at offset 4k returns, but for CLAIM (offset 1CH), whose read is a command: 0 for write-only
registers and unassigned offsets (11 R185), and 0 for every register while RESETn is low (11 R184).
(DESIGN CHOICE, safe: notes/assumptions/11.md). -/
def readRegister (c : Controller) (set : BitVec 5) (k : Fin 16) : Word :=
  if !c.resetHigh then 0
  else
    match k.val with
    | 0 => Config.ident
    | 2 => statusWord c
    | 3 => BitVec.ofNat 32 (c.qbase.toNat % 4294967296)
    | 4 => BitVec.ofNat 32 (c.qbase.toNat / 4294967296)
    | 9 => inserviceWord set
    | _ => 0

/-- The register window takes writes, and CLAIM reads with their effect: RESETn is high and no controller reset waits
(11 R183, R184). -/
def Controller.windowOpen (c : Controller) : Bool := c.resetHigh && !c.resetWaits

/-- The bytes of a word that a read takes, in their places; the lanes not read are zero (11 R185). -/
def laneMask (lanes : Lanes) : Word :=
  let lane (k : Nat) : Byte := if lanes.getLsbD k then 0xFF#8 else 0#8
  lane 3 ++ (lane 2 ++ (lane 1 ++ lane 0))

/-- What a read of any width of the word at offset 4k returns: those bytes of the word, in their places, but for CLAIM
(11 R185; the lanes not read: notes/assumptions/11.md). -/
def readLanes (c : Controller) (set : BitVec 5) (k : Fin 16) (lanes : Lanes) : Word :=
  readRegister c set k &&& laneMask lanes

end Sys2Proof.Machine
end

