-- ==== Sys2Proof/Machine/Serial.lean ====
section
/-! DEFINITION. Characters on the line: frames, character times and timer spans, and the classing of a received
character (02 2.2, 03 3.1, 05 5.4). -/

namespace Sys2Proof.Machine

def DataBits.count : DataBits → Nat
  | .seven => 7
  | .eight => 8
  | .nine => 9

def Parity.count : Parity → Nat
  | .off => 0
  | _ => 1

def StopBits.count : StopBits → Nat
  | .one => 1
  | .two => 2

/-- The frame length of 02 Table 2.3 in bit times: the character time (02 R28). -/
def LineRecord.frameLength (r : LineRecord) : Nat :=
  1 + r.dataBits.count + r.parity.count + r.stopBits.count

/-- A number of character times in samples: 16 samples to the bit time (02 R27). -/
def LineRecord.characterTimes (r : LineRecord) (n : Nat) : Nat := n * 16 * r.frameLength

/-- A number of bit times in samples (02 R27). -/
def bitTimes (n : Nat) : Nat := n * 16

/-- The reference periods to a sample (02 R27). -/
def LineRecord.samplePeriods (r : LineRecord) : Nat := r.divisor.toNat + 1

/-- The bits received between the start bit and the first stop bit: the data bits (with the address mark on a 9-bit
line) and the parity bit if any (03 R47). -/
def LineRecord.bitsPerCharacter (r : LineRecord) : Nat := r.dataBits.count + r.parity.count

/-- The number of 1s among bits. -/
def ones (bits : List Bool) : Nat := bits.count true

/-- The byte that data bits spell, least significant first (02 R28). -/
def byteOfBits (bits : List Bool) : Byte :=
  BitVec.ofNat 8 (bits.foldr (fun b acc => b.toNat + 2 * acc) 0)

/-- The parity bit for data bits: it makes the number of 1s even (EVEN) or odd (ODD) (02 R28). -/
def parityBits (p : Parity) (data : List Bool) : List Bool :=
  match p with
  | .off => []
  | .even => [ones data % 2 == 1]
  | .odd => [ones data % 2 == 0]

/-- The data bits a byte is sent as: its low 7 or 8 bits, and on a 9-bit line the mark after them (05 R94). -/
def dataBitsOf (d : DataBits) (value : Byte) (mark : Bool) : List Bool :=
  match d with
  | .seven => (List.range 7).map value.getLsbD
  | .eight => (List.range 8).map value.getLsbD
  | .nine => (List.range 8).map value.getLsbD ++ [mark]

/-- The frame of a character: start bit, data bits, parity bit or address mark, stop bits (02 R28, 05 R94). -/
def txFrame (r : LineRecord) (value : Byte) (mark : Bool) : List Bool :=
  let data := dataBitsOf r.dataBits value mark
  [false] ++ data ++ parityBits r.parity data ++ List.replicate r.stopBits.count true

/-- The parity error of received bits (03 Table 3.4): the number of 1s among data and parity bits is odd for EVEN or
even for ODD. -/
def parityError (p : Parity) (bits : List Bool) : Bool :=
  match p with
  | .off => false
  | .even => ones bits % 2 == 1
  | .odd => ones bits % 2 == 0

/-- The class of a completed character from its bits and its first stop bit (03 R48, Table 3.4): a break first, then
framing and parity. -/
def classify (r : LineRecord) (bits : List Bool) (stop : Bool) : Staged :=
  if !stop && ones bits == 0 then
    { value := 0, mark := false, framing := false, parity := false, brk := true, close := none }
  else
    { value := byteOfBits (bits.take (min 8 r.dataBits.count)),
      mark := r.dataBits == .nine && bits.getD 8 false,
      framing := !stop, parity := parityError r.parity bits, brk := false, close := none }

end Sys2Proof.Machine
end

