-- ==== Sys2Proof/Machine/LineOps.lean ====
section
/-! DEFINITION. Operations that one line's units share: control list and command progress, receiver states and RTS,
buffer writes and buffer completions, the transmitter's characters and record ends, the poll engine's outcomes and
completions, and what a completion's admission does to the line. All act on one line; what they compose is offered to
the backlog by `settle` (Ops.lean). -/

namespace Sys2Proof.Machine

/-! ### Lists of members -/

/-- The composed completion at the head of a list, which is the one on offer (01 R20). -/
def headResult {β : Type} : List (Member β) → Option (Slot × Result)
  | { slot, phase := .finishing r, .. } :: _ => some (slot, r)
  | _ => none

/-- The head of a list gets a composed completion (01 R4, ACTIVE or LISTED to FINISHING). -/
def finishHead {β : Type} (r : Result) : List (Member β) → List (Member β)
  | m :: ms => { m with phase := .finishing r } :: ms
  | [] => []

/-- The head of a list enters ACTIVE if it is LISTED (01 R4). -/
def activateHead {β : Type} : List (Member β) → List (Member β)
  | m :: ms => (if m.phase = .listed then { m with phase := .active } else m) :: ms
  | [] => []

/-- The entries of a list's LISTED members. -/
def listedSlots {β : Type} (ms : List (Member β)) : List Slot :=
  (ms.filter fun m => m.phase = .listed).map Member.slot

/-- Every LISTED member has its completion composed with status `st` and zero fields (04 R83, 05 R102, 06 R124). -/
def finishListed {β : Type} (st : Status) (ms : List (Member β)) : List (Member β) :=
  ms.map fun m =>
    if m.phase = .listed then { m with phase := .finishing { status := st, count := 0, detail := 0 } } else m

/-! ### Line control unit (02 2.4) -/

/-- The line's record has mode POLL (02 Table 2.1). -/
def Line.isPoll (l : Line) : Bool := l.record.mode == .poll

/-- RTS and CTS are in use: a STREAM line with flow HARDWARE (02 R30). -/
def Line.hardwareFlow (l : Line) : Bool := l.record.mode == .stream && l.record.flow == .hardware

/-- The command at the head of the control list, if it is ACTIVE and not yet taken (02 R31, R32).
(DEDUCED: notes/assumptions/29.md). -/
def Line.headCommand (l : Line) : Option LineCommand :=
  match l.control with
  | m :: _ => if m.phase = .active ∧ l.progress = .untaken then some m.body else none
  | [] => none

/-- A command joins the control list, ACTIVE if the list was empty (02 R31). -/
def Line.joinControl (l : Line) (slot : Slot) (c : LineCommand) : Line :=
  { l with control := l.control ++ [{ slot, phase := if l.control.isEmpty then .active else .listed, body := c }] }

/-- The command at the head has its completion composed (02 2.5). -/
def Line.finishCommand (l : Line) (st : Status) (count : Nat) (detail : Word) : Line :=
  { l with
    control := finishHead { status := st, count := BitVec.ofNat 16 count, detail } l.control
    progress := .untaken }

/-- A record's completion has entered the backlog: an ABORT_LINE at the head that waits for it waits no longer, and
completes when it waits for none (02 R39, 01 R24). -/
def Line.recordEntered (l : Line) (slot : Slot) : Line :=
  match l.progress with
  | .abort waitFor count =>
    if (waitFor.erase slot).isEmpty then l.finishCommand .ok count 0
    else { l with progress := .abort (waitFor.erase slot) count }
  | _ => l

/-! ### Receiver (03) -/

/-- The receiver goes OFF: a character in progress is dropped and the idle-gap timer stops (03 R44). -/
def Line.rxOff (l : Line) : Line :=
  { l with rx := { l.rx with state := .off, read := [], sample := 0, idleTimer := none } }

/-- The receiver leaves OFF for HUNT, on an ENABLED line (03 R44). -/
def Line.rxHunt (l : Line) : Line :=
  if l.state = .enabled then { l with rx := { l.rx with state := .hunt, read := [], sample := 0 } } else l

/-- The staging FIFO is discarded whole (03 R58). -/
def Line.discardStaged (l : Line) : Line := { l with rx := { l.rx with fifo := [] } }

/-- The lost count rises, saturating at 65535 (03 R57). -/
def Line.addLost (l : Line) (n : Nat) : Line :=
  { l with rx := { l.rx with lost := saturate 65535 (l.rx.lost + n) } }

/-- A stray character: the stray count rises, saturating at 255, and STRAY is raised (03 R63). -/
def Line.addStray (l : Line) : Line :=
  raise .stray { l with rx := { l.rx with stray := saturate 255 (l.rx.stray + 1) } }

/-- RTS after an entry has joined: deasserted from 6 entries up, on a line with hardware flow (03 R59). -/
def Line.rtsAfterJoin (l : Line) : Line :=
  if l.hardwareFlow && decide (6 ≤ l.rx.fifo.length) then { l with rts := false } else l

/-- RTS after an entry has been taken, or HELD has ended: asserted at 2 entries or fewer while the line is not HELD, on a
line with hardware flow (03 R59). -/
def Line.rtsAfterTake (l : Line) : Line :=
  if l.hardwareFlow && !l.rx.held && decide (l.rx.fifo.length ≤ 2) then { l with rts := true } else l

/-- The taking unit takes the head of the staging FIFO (03 R52). -/
def Line.dropStagedHead (l : Line) : Line :=
  Line.rtsAfterTake { l with rx := { l.rx with fifo := l.rx.fifo.tail } }

/-- A close mark is placed on the newest staging entry, and the armed flag is cleared (03 R61, R62). -/
def markNewest (m : CloseMark) : List Staged → List Staged
  | [] => []
  | [e] => [{ e with close := some m }]
  | e :: es => e :: markNewest m es

def Line.placeMark (l : Line) (m : CloseMark) : Line :=
  { l with rx := { l.rx with fifo := markNewest m l.rx.fifo, armed := false } }

/-! ### Write assemblies (04 R75, 06 R118) -/

/-- The assembly can take another byte, at `offset` of an area at `base`: it holds fewer than 16 bytes, and it is empty
or the next byte's address is no multiple of 32 (04 R75). -/
def assemblyHasRoom (assembly : List Byte) (base : Addr) (offset : Nat) : Bool :=
  decide (assembly.length < Config.assemblySize) &&
    (assembly.isEmpty || (base.toNat + offset) % Config.boundary != 0)

/-- The write of an assembly whose next byte would lie at `offset` of an area at `base` (04 R75). -/
def assemblyWrite (assembly : List Byte) (base : Addr) (offset : Nat) : Extent :=
  { address := base + BitVec.ofNat 40 (offset - assembly.length), size := assembly.length, bytes := assembly }

/-! ### Buffer filler (04) -/

/-- The buffer at the head of the RX buffer list. -/
def Filler.headBuffer (f : Filler) : BufferBody :=
  match f.list with
  | m :: _ => m.body
  | [] => { address := 0, capacity := 0 }

/-- The write assembly can take another byte for the head buffer (04 R75). -/
def Filler.hasRoom (f : Filler) : Bool := assemblyHasRoom f.assembly f.headBuffer.address f.fill

/-- The filler requests the port for its assembly when 04 R75 lets it. -/
def Line.requestBufferWrite (l : Line) : Line :=
  let f := l.filler
  if f.outstanding.isNone && !f.assembly.isEmpty && (!f.hasRoom || l.rx.fifo.isEmpty || f.state == .closing) then
    { l with filler := { f with outstanding := some (assemblyWrite f.assembly f.headBuffer.address f.fill),
                                assembly := [] } }
  else l

/-- The head buffer's completion is composed with a status (04 R77, Table 4.4). -/
def Line.offerBuffer (l : Line) (st : Status) : Line :=
  let f := l.filler
  { l with
    filler :=
      { f with
        list := finishHead { status := st, count := BitVec.ofNat 16 f.written,
                             detail := bufferDetail f.reason f.firstMarked f.errors f.dropped } f.list
        state := .offering } }

/-- In CLOSING with the assembly empty and no write outstanding, the head buffer's completion is composed (04 R77). -/
def Line.composeBuffer (l : Line) : Line :=
  let f := l.filler
  if f.state = .closing ∧ f.assembly = [] ∧ f.outstanding = none then l.offerBuffer (f.endStatus.getD .ok) else l

/-- The head buffer's close is decided: the filler moves to CLOSING, the armed flag is cleared if nothing is staged
(03 R61), the assembly is requested, and the buffer completes when nothing remains to write (04 R74, R75, R77). -/
def Line.closeBuffer (l : Line) (reason : CloseReason) : Line :=
  let l1 := { l with filler := { l.filler with state := .closing, reason },
                     rx := { l.rx with armed := l.rx.armed && !l.rx.fifo.isEmpty } }
  l1.requestBufferWrite.composeBuffer

/-- A buffer has become the head: its progress starts at zero (04 R65, R66). -/
def Filler.fresh (f : Filler) (s : FillerState) : Filler :=
  { f with state := s, fill := 0, written := 0, errors := 0, dropped := 0, firstMarked := false, reason := .none,
           endStatus := none, assembly := [] }

/-- A POST_BUFFER joins the RX buffer list; joining an empty list it becomes the head (04 R65 to R67). -/
def Line.joinBuffers (l : Line) (slot : Slot) (b : BufferBody) : Line :=
  if l.filler.list.isEmpty then
    { l with filler := { l.filler.fresh .filling with list := [{ slot, phase := .active, body := b }] } }
  else { l with filler := { l.filler with list := l.filler.list ++ [{ slot, phase := .listed, body := b }] } }

/-- The RX buffer list holds an open buffer: one whose close has not been decided (04 R66, 03 R53). -/
def Line.hasOpenBuffer (l : Line) : Bool :=
  l.filler.state == .filling || l.filler.list.any fun m => m.phase == .listed

/-- The head buffer is reached by an abort, STOP or DISABLE whose status is `st`: in FILLING, or in CLOSING with its end
not so decided before (04 R83). -/
def Filler.reached (f : Filler) : Bool := (f.state == .filling || f.state == .closing) && f.endStatus.isNone

/-- The entries of the buffers that an abort, STOP or DISABLE completes (04 R83). -/
def Line.reachedBuffers (l : Line) : List Slot :=
  (if l.filler.reached then (l.filler.list.take 1).map Member.slot else []) ++ listedSlots l.filler.list

/-- An abort, STOP or DISABLE reaches the filler (04 R83 to R85). The armed flag stays as it is (DESIGN CHOICE:
notes/assumptions/30.md). -/
def Line.endBuffers (l : Line) (st : Status) : Line :=
  let l1 := { l with filler := { l.filler with list := finishListed st l.filler.list } }
  if l.filler.reached then
    Line.composeBuffer
      (Line.requestBufferWrite { l1 with filler := { l1.filler with state := .closing, endStatus := some st } })
  else l1

/-- The filler takes up a FLUSH_RX (04 R81): it marks the newest staging entry, closes the head buffer at once, or
reports that nothing was closed; while a buffer is in CLOSING or OFFERING the FLUSH_RX waits.
(DEDUCED: notes/assumptions/20.md). -/
def Line.takeUpFlush (l : Line) : Line :=
  match l.filler.state, l.filler.list with
  | .filling, m :: _ =>
    if l.rx.fifo.isEmpty then
      Line.closeBuffer
        { l with progress := .flush,
                 filler := { l.filler with flush := some { slot := m.slot, ahead := none, atMark := true } } } .flush
    else
      Line.placeMark
        { l with progress := .flush,
                 filler := { l.filler with
                   flush := some { slot := m.slot, ahead := some (l.rx.fifo.length - 1), atMark := false } } } .flush
  | .idle, _ => l.finishCommand .ok 0 (flushDetail .nothingClosed 0)
  | _, _ => { l with progress := .flushHanded }

/-- The flushed buffer's completion has entered the backlog: the FLUSH_RX completes (04 R82), CLOSED_AT_MARK if the buffer
closed at the marked entry, also where a STOP reached it after that (DEDUCED: notes/assumptions/31.md). -/
def Line.flushedEntered (l : Line) (slot : Slot) (r : Result) : Line :=
  match l.filler.flush with
  | some f =>
    if f.slot = slot ∧ l.progress = .flush then
      Line.finishCommand { l with filler := { l.filler with flush := none } } .ok r.count.toNat
        (flushDetail (if f.atMark then .closedAtMark else .closedBeforeMark) r.detail)
    else l
  | none => l

/-- The buffer at the head has left the RX buffer list: the next becomes the head, or the filler is IDLE and NO_BUFFER is
raised if entries are staged (04 R66, R67, R78, R79). -/
def Line.nextBuffer (l : Line) : Line :=
  match l.filler.list.tail with
  | [] =>
    let l1 := { l with filler := { l.filler.fresh .idle with list := [] } }
    if l.rx.fifo.isEmpty then l1 else raise .noBuffer l1
  | m :: ms =>
    if m.phase = .listed then
      { l with filler := { l.filler.fresh .filling with list := activateHead (m :: ms) } }
    else { l with filler := { l.filler.fresh .offering with list := m :: ms } }

/-- The completion of the buffer at the head has entered the backlog (04 R78, R81, R82, 02 R39). -/
def Line.bufferEntered (l : Line) (slot : Slot) (r : Result) : Line :=
  let l1 := ((l.nextBuffer).flushedEntered slot r).recordEntered slot
  if l1.progress = .flushHanded then l1.takeUpFlush else l1

/-! ### Transmitter (05) -/

/-- The characters a job sends: its bytes, and a poll request's address character before them (05 R105). -/
def TxJob.characters (j : TxJob) : Nat := j.send.length + j.station.isSome.toNat

/-- The transmitter requests a data read when 05 R92 lets it: its size is the smallest of the free bytes, the unread
bytes, and the bytes to the next 32-byte-aligned address. -/
def Transmitter.requestRead (t : Transmitter) : Transmitter :=
  match t.job with
  | none => t
  | some j =>
    let free := Config.transmitStaging - t.staging.length
    if t.endCause = none ∧ t.busError = false ∧ t.outstanding = none ∧ t.readOffset < j.send.length ∧ 8 ≤ free then
      let from_ := j.send.address.toNat + t.readOffset
      let size := min free (min (j.send.length - t.readOffset) (Config.boundary - from_ % Config.boundary))
      { t with outstanding := some { address := BitVec.ofNat 40 from_, size, bytes := [] },
               readOffset := t.readOffset + size }
    else t

/-- A job begins: its progress is zero, its staging empty and its first read requested; it enters BREAK if it has a
break-before, and LOAD otherwise (05 R90). -/
def Line.beginJob (l : Line) (j : TxJob) : Line :=
  let t := { l.tx with job := some j, readOffset := 0, sent := 0, bytesRead := 0, breakDone := false, staging := [],
                       busError := false, endCause := none, outstanding := none, ctsTimer := none, gapTimer := none }
  if j.send.breakBefore = 0 then { l with tx := { t.requestRead with state := .load, txd := .mark } }
  else
    { l with tx := { t.requestRead with
        state := .brk, txd := .breakThenMark (l.record.characterTimes j.send.breakBefore) } }

/-- A character's start bit begins: the transmitter is in SEND and TXD carries the frame (05 R91, R94). -/
def Line.startFrame (l : Line) (value : Byte) (mark : Bool) : Line :=
  { l with tx := { l.tx with state := .send, txd := .frame (txFrame l.record value mark), ctsTimer := none,
                             gapTimer := none } }

/-- The byte at the head of the staging goes out; the next read is requested as soon as it may be (05 R92, R94). The
ninth bit is 1 for the first character of a record with MARK_FIRST. -/
def Line.sendStaged (l : Line) (j : TxJob) : Line :=
  match l.tx.staging with
  | [] => l
  | b :: rest =>
    let l1 := l.startFrame b (j.send.markFirst && l.tx.sent == 0)
    { l1 with tx := ({ l1.tx with staging := rest }).requestRead }

/-- The result of a SEND whose end is decided (05 Table 5.4): its end state is NONE where the transmitter never took it,
which includes a SEND that its poll engine holds in GUARD (DEDUCED: notes/assumptions/32.md). -/
def Transmitter.sendResult (t : Transmitter) (st : Status) : Result :=
  { status := st, count := BitVec.ofNat 16 t.sent,
    detail := sendDetail t.bytesRead t.breakDone ((t.endCause.map Prod.snd).getD .idle) }

/-- The transmitter holds no record any more, and the progress of the next one starts at zero (05 R87, R99, R105). -/
def Transmitter.jobOver (t : Transmitter) : Transmitter :=
  { t with job := none, busError := false, endCause := none, staging := [], readOffset := 0, sent := 0, bytesRead := 0,
           breakDone := false }

/-- On a STREAM line, a record whose end is decided and whose character work has stopped has its completion composed when
no read is outstanding (05 R99). (DEDUCED: notes/assumptions/14.md). -/
def Line.composeSend (l : Line) : Line :=
  match l.tx.endCause with
  | some (st, _) =>
    if l.tx.state = .idle ∧ l.tx.outstanding = none ∧ l.tx.job ≠ none then
      { l with tx := { l.tx.jobOver with list := finishHead (l.tx.sendResult st) l.tx.list } }
    else l
  | none => l

/-- A SEND joins the TX list (05 R88). -/
def Line.joinSends (l : Line) (slot : Slot) (b : SendBody) : Line :=
  { l with tx := { l.tx with list := l.tx.list ++ [{ slot, phase := .listed, body := b }] } }

/-- The completion of the SEND at the head of the TX list has entered the backlog (05 R100, 02 R39). -/
def Line.sendEntered (l : Line) (slot : Slot) : Line :=
  Line.recordEntered { l with tx := { l.tx with list := l.tx.list.tail } } slot

/-! ### Poll engine (06) -/

/-- The record at the head of the POLL work list. -/
def PollEngine.headWork (p : PollEngine) : Option PollWork := p.list.head?.map Member.body

/-- The POLL at the head of the list. -/
def PollEngine.headPoll (p : PollEngine) : PollBody :=
  match p.headWork with
  | some (.poll b) => b
  | _ => { station := 0, payloadAddress := 0, payloadLength := 0, replyAddress := 0, replyCapacity := 0,
           replyEnd := .gap, replyGap := 0, timeout := 0, retries := 0 }

/-- The write assembly can take another reply byte (06 R118). -/
def PollEngine.hasRoom (p : PollEngine) : Bool := assemblyHasRoom p.assembly p.headPoll.replyAddress p.fill

/-- The engine requests the port for its assembly when 06 R118 lets it: the assembly cannot take another byte, the FIFO
holds no entry the engine may take, or the outcome is decided. -/
def Line.requestReplyWrite (l : Line) : Line :=
  let p := l.poll
  if p.outstanding.isNone && !p.assembly.isEmpty && (!p.hasRoom || l.rx.fifo.isEmpty || p.attempt == .settle) then
    { l with poll := { p with outstanding := some (assemblyWrite p.assembly p.headPoll.replyAddress p.fill),
                              assembly := [] } }
  else l

/-- The reply window closes and the staging FIFO is discarded (06 R119). -/
def Line.closeWindow (l : Line) : Line :=
  Line.discardStaged { l with poll := { l.poll with window := false } }

/-- The window of an OK reply closes once its last write has ended (06 R119). -/
def Line.closeWindowIfWritten (l : Line) : Line :=
  if l.poll.attempt = .settle ∧ l.poll.window ∧ l.poll.assembly = [] ∧ l.poll.outstanding = none then l.closeWindow
  else l

/-- The reply timeout timer and the reply gap timer stop, with the tail count (06 R119). -/
def PollEngine.stopTimers (p : PollEngine) : PollEngine := { p with replyTimer := none, gapTimer := none, tail := none }

/-- The attempt's outcome is decided (06 R119): timers stop, the engine enters SETTLE, the window closes on a failure,
the bytes assembled are written. -/
def Line.decideOutcome (l : Line) (o : PollOutcome) : Line :=
  let l1 := { l with poll := { l.poll.stopTimers with attempt := .settle, outcome := o } }
  let l2 := if o = .ok then l1 else l1.closeWindow
  l2.requestReplyWrite.closeWindowIfWritten

/-- The last outcome and the outcomes seen of a POLL that ends with status `st` (06 Table 6.6): none new for BUS_ERROR;
the current attempt's outcome, if decided, for ABORTED and LINE_DISABLED; the last attempt's otherwise.
(DEDUCED: notes/assumptions/18.md). -/
def PollEngine.reported (p : PollEngine) (st : Status) : PollOutcome × BitVec 7 :=
  match st with
  | .busError => (.none, p.seen)
  | .aborted | .lineDisabled => (p.outcome, p.seen ||| p.outcome.asSeen)
  | _ => (p.lastOutcome, p.seen)

/-- The result of the current record (06 R121, R113). -/
def Line.pollResult (l : Line) (st : Status) : Result :=
  match l.poll.headWork with
  | some (.send _) => l.tx.sendResult st
  | _ =>
    { status := st, count := BitVec.ofNat 16 l.poll.written,
      detail := pollDetail (l.poll.reported st).1 l.poll.attemptNumber (l.poll.reported st).2 }

/-- In SETTLE, a record whose end is decided has its completion composed when no reply write is outstanding or assembled
and no read is outstanding (06 R113, R121, R123); the stop flag is cleared (06 R120). -/
def Line.composePoll (l : Line) : Line :=
  match l.poll.endStatus with
  | some st =>
    if l.poll.attempt = .settle ∧ l.poll.assembly = [] ∧ l.poll.outstanding = none ∧ l.tx.outstanding = none then
      { l with
        poll := { l.poll with list := finishHead (l.pollResult st) l.poll.list, endStatus := none, stopFlag := false }
        tx := l.tx.jobOver }
    else l
  | none => l

/-- The record's end is decided, unless an earlier cause decided it (06 R123). -/
def PollEngine.decideEnd (p : PollEngine) (st : Status) : PollEngine :=
  { p with endStatus := some (p.endStatus.getD st) }

/-- DE is released: the receiver leaves OFF for HUNT on an ENABLED line, and the quiet timer restarts (06 R109, R112,
R113, 03 R44). -/
def Line.releaseDriver (l : Line) : Line :=
  Line.rxHunt { l with de := false, poll := { l.poll with quiet := l.state == .enabled } }

/-- The character work for the poll engine has ended with a status: DE is released with the window closed and the engine
enters SETTLE (06 R111, R113, R123). -/
def Line.pollWorkEnded (l : Line) (st : Status) : Line :=
  let l1 := l.releaseDriver
  Line.composePoll { l1 with poll := { l1.poll.decideEnd st with attempt := .settle } }

/-- The transmitter stops its character work and enters IDLE with TXD at mark, its staging emptied; the record's end is
decided with status `st` in transmitter state `ts` (05 R99, R105). -/
def Line.stopCharacters (l : Line) (st : Status) (ts : TxState) : Line :=
  let l1 := { l with tx := { l.tx with state := .idle, staging := [], ctsTimer := none, gapTimer := none,
                                       endCause := some (st, ts), txd := .mark } }
  if l.isPoll then l1.pollWorkEnded st else l1.composeSend

/-- The last stop bit of a poll request ends: RELEASE, the window opens, the reply timeout timer starts (06 R112). -/
def Line.requestSent (l : Line) : Line :=
  let l1 := { l with tx := { l.tx.jobOver with state := .idle, txd := .mark } }.releaseDriver
  { l1 with poll := { l1.poll with attempt := .release, window := true, fill := 0, written := 0,
                                   replyTimer := some l1.poll.headPoll.timeout } }

/-- The point of starting a character (05 R91): the request's address character first; with the staging empty LOAD, or
the record's end after a bus error (05 R93); with a byte staged CTS_WAIT if CTS is deasserted on a line with hardware
flow (05 R97, R98), else SEND. -/
def Line.startCharacter (l : Line) : Line :=
  match l.tx.job with
  | none => l
  | some j =>
    match j.station, l.tx.sent with
    | some a, 0 => l.startFrame a true
    | _, _ =>
      if l.tx.staging.isEmpty then
        if l.tx.busError then l.stopCharacters .busError l.tx.state
        else { l with tx := { l.tx with state := .load, txd := .mark, gapTimer := none } }
      else if l.hardwareFlow && !l.tx.cts then
        { l with tx := { l.tx with state := .ctsWait, txd := .mark, gapTimer := none,
                                   ctsTimer := if j.send.ctsLimit = 0 then none else some j.send.ctsLimit } }
      else l.sendStaged j

/-- The transmitter reads CTS, whose level is `cts` (05 R97). -/
def Line.readCts (l : Line) (cts : Bool) : Line := { l with tx := { l.tx with cts := cts } }

/-- An abort or disable reaches the character work: a character in shift runs to its last stop bit with the end decided,
anything else ends at once (05 R101). -/
def Line.abortCharacters (l : Line) (st : Status) : Line :=
  if l.tx.state = .send then { l with tx := { l.tx with endCause := some (st, .send) } }
  else l.stopCharacters st l.tx.state

/-- The current record of a STREAM line's transmitter is reached by an abort or disable: it is ACTIVE and its end is not
decided (05 R101, R99). (DEDUCED: notes/assumptions/15.md). -/
def Transmitter.reached (t : Transmitter) : Bool := t.job.isSome && t.endCause.isNone

/-- The entries of the SENDs that an ABORT_LINE or DISABLE_LINE completes (05 R101, R102). -/
def Line.reachedSends (l : Line) : List Slot :=
  (if l.tx.reached then (l.tx.list.take 1).map Member.slot else []) ++ listedSlots l.tx.list

/-- An ABORT_LINE or DISABLE_LINE reaches the transmitter of a STREAM line (05 R101 to R103). -/
def Line.endSends (l : Line) (st : Status) : Line :=
  let l1 := { l with tx := { l.tx with list := finishListed st l.tx.list } }
  if l.tx.reached then l1.abortCharacters st else l1

/-- The engine's current record, if any, is not yet in FINISHING. -/
def PollEngine.carrying (p : PollEngine) : Bool := p.attempt != .none && (headResult p.list).isNone

/-- The current record of the poll engine is reached by an abort or disable: ACTIVE, its end not decided (06 R123). -/
def PollEngine.reached (p : PollEngine) : Bool := p.carrying && p.endStatus.isNone

/-- The entries of the records that an ABORT_LINE or DISABLE_LINE completes (06 R123, R124). -/
def Line.reachedPolls (l : Line) : List Slot :=
  (if l.poll.reached then (l.poll.list.take 1).map Member.slot else []) ++ listedSlots l.poll.list

/-- The current record ends by its attempt state (06 R123). (DEDUCED: notes/assumptions/27.md). -/
def Line.cutAttempt (l : Line) (st : Status) : Line :=
  let ended (m : Line) : Line := { m with poll := { m.poll.decideEnd st with attempt := .settle, guardSpan := none } }
  match l.poll.attempt with
  | .none => l
  | .guard => (ended l).composePoll
  | .request => Line.abortCharacters { l with poll := l.poll.decideEnd st } st
  | .release | .await | .reply =>
    (Line.requestReplyWrite (ended (Line.closeWindow { l with poll := l.poll.stopTimers }))).composePoll
  | .settle => Line.composePoll { l with poll := l.poll.decideEnd st }

/-- An ABORT_LINE of class ALL or a DISABLE_LINE reaches the poll engine (06 R123 to R125). -/
def Line.endPolls (l : Line) (st : Status) : Line :=
  let l1 := { l with poll := { l.poll with list := finishListed st l.poll.list } }
  if l.poll.reached then l1.cutAttempt st else l1

/-- A SEND or POLL joins the POLL work list (06 R106). -/
def Line.joinPolls (l : Line) (slot : Slot) (w : PollWork) : Line :=
  { l with poll := { l.poll with list := l.poll.list ++ [{ slot, phase := .listed, body := w }] } }

/-- The completion of the record at the head of the POLL work list has entered the backlog: the engine is in NONE
(06 R106, R108, 02 R39). -/
def Line.pollEntered (l : Line) (slot : Slot) : Line :=
  Line.recordEntered { l with poll := { l.poll with list := l.poll.list.tail, attempt := .none } } slot

/-! ### The line as a whole -/

/-- The completion of the command at the head has entered the backlog: it leaves the control list, and the next command
becomes the head, ACTIVE (02 R31). -/
def Line.commandEntered (l : Line) : Line :=
  { l with control := activateHead l.control.tail, progress := .untaken }

/-- A controller STOP reaches the line on entry to DRAINING (11 R180, 04 R84, 05 R103, 06 R126).
(DEDUCED: notes/assumptions/21.md). -/
def Line.stop (l : Line) : Line :=
  if l.state ≠ .enabled then l
  else if l.isPoll then
    { l with poll := { l.poll with list := finishListed .stopped l.poll.list,
                                   stopFlag := l.poll.stopFlag || l.poll.carrying } }
  else
    Line.endBuffers { l with tx := { l.tx with list := finishListed .stopped l.tx.list } } .stopped

/-- Entry to FAULTED: the line goes straight to DISABLED with everything at rest; it keeps its line record, lost count,
stray count and pending event bits (02 R43). -/
def Line.shutDown (l : Line) : Line :=
  { Line.rest with
    record := l.record
    rx := { Receiver.rest with lost := l.rx.lost, stray := l.rx.stray }
    event := { pending := l.event.pending, queued := false } }

end Sys2Proof.Machine
end

