-- ==== Sys2Proof/Machine/Ops.lean ====
section
/-! DEFINITION. Operations of the whole part: lines and the request table, offers to the backlog and their admission,
the memory port, entry to FAULTED, the two resets, notification. -/

namespace Sys2Proof.Machine


/-! ### Lines and the request table -/

def State.line (s : State) (n : LineNo) : Line := s.lines[n]

def State.setLine (s : State) (n : LineNo) (l : Line) : State := { s with lines := s.lines.set n l }

def State.entry (s : State) (slot : Slot) : Option Entry := s.table[slot]

def State.setEntry (s : State) (slot : Slot) (e : Option Entry) : State := { s with table := s.table.set slot e }

/-- The free entries of the request table, lowest first. (DESIGN CHOICE, safe: notes/assumptions/8.md). -/
def State.freeSlots (s : State) : List Slot := (List.finRange 64).filter fun i => (s.entry i).isNone

/-- The entries in use whose SQ is `q` (01 R14). -/
def State.slotsOf (s : State) (q : SqNo) : List Slot :=
  (List.finRange 64).filter fun i =>
    match s.entry i with
    | some e => e.sq == q
    | none => false

/-- The request table is empty (01 R7). -/
def State.tableEmpty (s : State) : Bool := s.table.all Option.isNone

/-- The entry leaves the wait sets of all FENCEs (01 R14). -/
def State.leaveWaitSets (s : State) (slot : Slot) : State :=
  { s with fences := s.fences.map fun f => f.map fun f => { f with waitSet := f.waitSet.erase slot } }

/-! ### The completion backlog (01 R16, R17, R20, R21) -/

def lineProducers (n : LineNo) : List Producer := [.data n, .transmitter n, .control n]

/-- The producers in the order of their requester positions (01 Table 1.8). -/
def allProducers : List Producer :=
  [.dispatcher, .fence] ++ lineNumbers.flatMap fun n => [.control n, .data n, .transmitter n, .event n]

/-- The requester position (01 Table 1.8). -/
def Producer.position : Producer → Nat
  | .dispatcher => 1
  | .fence => 2
  | .control n => 3 + 4 * n.val
  | .data n => 4 + 4 * n.val
  | .transmitter n => 5 + 4 * n.val
  | .event n => 6 + 4 * n.val

/-- A list of positions searched round-robin: those after `last`, then round to `last` itself. -/
def searchAfter {α : Type} [DecidableEq α] (all : List α) (last : α) : List α :=
  (all.dropWhile fun x => x ≠ last).tail ++ (all.takeWhile fun x => x ≠ last) ++ [last]

/-- The composed completion a producer has on offer; event units offer in EVENT_OFFER only (01 R20, Table 1.8). -/
def State.onOffer (s : State) : Producer → Option (Slot × Result)
  | .dispatcher => s.dispatched.head?
  | .fence => s.fencesDone.head?
  | .control n => headResult (s.line n).control
  | .data n => if (s.line n).isPoll then headResult (s.line n).poll.list else headResult (s.line n).filler.list
  | .transmitter n => headResult (s.line n).tx.list
  | .event _ => none

/-- The completion of an entry with its composed result (01 Table 1.7, R10). -/
def Entry.completion (e : Entry) (r : Result) : Completion :=
  let h := e.header.getD { tag := 0, kind := 0, line := none, urgent := false }
  { tag := h.tag, kind := h.kind, status := r.status, line := h.line.getD 0, sq := e.sq, count := r.count,
    detail := r.detail }

/-- A record's completion takes a backlog slot; its request-table entry is freed and leaves the wait sets at the same
moment (01 R6, R14, R17). -/
def State.enterRecord (s : State) (slot : Slot) (r : Result) : State :=
  match s.entry slot with
  | none => s
  | some e =>
    let urgent := (e.header.map Header.urgent).getD false
    State.leaveWaitSets
      { s with
        table := s.table.set slot none
        backlog := { s.backlog with entries := s.backlog.entries ++ [.completion e.cq urgent (e.completion r)] } }
      slot

/-- The producer's list moves on when its completion has entered the backlog (01 R20). -/
def State.producerMovesOn (s : State) (slot : Slot) (r : Result) : Producer → State
  | .dispatcher => { s with dispatched := s.dispatched.tail }
  | .fence => { s with fencesDone := s.fencesDone.tail }
  | .control n => s.setLine n (s.line n).commandEntered
  | .data n =>
    if (s.line n).isPoll then s.setLine n ((s.line n).pollEntered slot)
    else s.setLine n ((s.line n).bufferEntered slot r)
  | .transmitter n => s.setLine n ((s.line n).sendEntered slot)
  | .event _ => s

/-- An event entry takes a backlog slot: for the event CQ the line record holds at this moment; the line's flag is set
(01 R16, R19, 07 R131). -/
def State.enterEvent (s : State) (n : LineNo) : State :=
  let l := s.line n
  { s.setLine n { l with event := { l.event with queued := true } } with
    backlog := { s.backlog with entries := s.backlog.entries ++ [.event l.record.eventCq n] } }

/-- A producer's entry is admitted to the backlog. -/
def State.enterBacklog (s : State) (p : Producer) : State :=
  match p with
  | .event n => s.enterEvent n
  | _ =>
    match s.onOffer p with
    | some (slot, r) => (s.enterRecord slot r).producerMovesOn slot r p
    | none => s

/-- A producer offers its entry: with a slot free (and none waiting for it, notes/assumptions/7.md) it is admitted at
once; otherwise the producer waits (01 R17, R20). -/
def State.offer (s : State) (p : Producer) : State :=
  if s.backlog.entries.length < Config.backlogSlots ∧ s.backlog.waiting = [] then s.enterBacklog p
  else { s with backlog := { s.backlog with waiting := s.backlog.waiting ++ [p] } }

/-- Those of the producers `ps` that have a composed completion and are not waiting yet. -/
def State.newOffers (s : State) (ps : List Producer) : List Producer :=
  ps.filter fun p => (s.onOffer p).isSome && !s.backlog.waiting.contains p

/-- Which of several offers made at one moment is taken first: the free value (01 R17). One offer leaves no choice. -/
def State.pickOffer (s : State) (c : Producer) (cs : List Producer) : Producer × State :=
  match cs with
  | [] => (c, s)
  | _ => ((c :: cs).getD (Config.offerChoice s.offersMade % (c :: cs).length) c, { s with offersMade := s.offersMade + 1 })

/-- The producers `ps` offer what they have composed, each its next entry after the one before was admitted, until every
one of them has nothing to offer or waits (01 R17, R20). -/
def State.settle (ps : List Producer) : Nat → State → State
  | 0, s => s
  | k + 1, s =>
    match s.newOffers ps with
    | [] => s
    | c :: cs => State.settle ps k ((s.pickOffer c cs).2.offer (s.pickOffer c cs).1)

/-- More offers than one moment can hold: 64 records, 66 producers. -/
def settleBound : Nat := 192

/-! ### One line's part in a step -/

/-- The line takes the value `l`, and its units offer what they have composed. -/
def State.updateLine (s : State) (n : LineNo) (l : Line) : State :=
  State.settle (lineProducers n) settleBound (s.setLine n l)

/-- A step of one line: nothing comes about where the spec gives the line no such step (notes/assumptions/3.md). -/
def onLine (n : LineNo) (f : Line → Option Line) (s : State) : Host.Outcome State Fault Refusal :=
  match f (s.line n) with
  | some l => .next (s.updateLine n l)
  | none => .next s

/-! ### The memory port (10) -/

/-- The line's request: its write if one waits, and its read otherwise (10 R170). -/
def Line.request (l : Line) (n : LineNo) : Option Transfer :=
  match if l.isPoll then l.poll.outstanding else l.filler.outstanding with
  | some x => some { kind := if l.isPoll then .replyWrite n else .rxBufferWrite n, extent := x }
  | none =>
    l.tx.outstanding.map fun x =>
      { kind := if (l.tx.job.bind TxJob.station).isSome then .payloadRead n else .txDataRead n, extent := x }

/-- The request a round-robin requester presents while no transfer is in flight (10 R170). -/
def State.requestOf (s : State) : PortRequester → Option Transfer
  | .fetcher => s.fetcher.outstanding
  | .line n => (s.line n).request n
  | .report => s.reports.head?.map fun r => { kind := .reportWrite r.line, extent := r.extent }

/-- The port positions in order (10 Table 10.2). -/
def portRequesters : List PortRequester := [.fetcher] ++ lineNumbers.map .line ++ [.report]

/-- The transfer in flight has ended (10 R168). -/
def State.transferOver (s : State) : State := { s with port := { s.port with inFlight := none } }

/-- The end of the transfer in flight, if it is of the kind `k` asks for: while a controller reset waits its result is
discarded (10 R174); otherwise it is acted on (10 R172). No other transfer ends. -/
def State.endTransfer (s : State) (k : TransferKind → Bool) (act : Transfer → State → Host.Outcome State Fault Refusal) :
    Host.Outcome State Fault Refusal :=
  match s.port.inFlight with
  | some t =>
    if k t.kind then
      if s.ctl.resetWaits then .next s.transferOver else act t s.transferOver
    else .next s
  | none => .next s

/-! ### Notification (09) -/

/-- NOTIFY follows its condition from moment to moment (09 R160). -/
def State.updateNotify (s : State) : State :=
  { s with notice := { s.notice with pin := notifyCondition s.block s.notice } }

def State.setCqNotice (s : State) (q : CqNo) (c : CqNotice) : State :=
  { s with notice := { s.notice with cqs := s.notice.cqs.set q c } }

/-- The notification items of a CQ after a completion was written to it (09 R155, R156). -/
def CqNotice.counted (c : CqNotice) (threshold delay : Nat) (urgent : Bool) : CqNotice :=
  let count := saturate 64 (c.newCount + 1)
  { newCount := count,
    flag := c.flag || decide (threshold ≤ count) || urgent,
    timer := if c.timer = none ∧ delay ≠ 0 then some delay else c.timer }

/-- The notification unit is told of a completion written to a CQ (09 R155). -/
def State.noteWritten (s : State) (q : CqNo) (urgent : Bool) : State :=
  match s.block with
  | some b =>
    if notifyEnabled s.block q then
      (s.setCqNotice q (s.notice.cqs[q].counted b.cqs[q].threshold b.cqs[q].delay urgent)).updateNotify
    else s
  | none => s

/-! ### Faults and resets (11 R182 to R184) -/

/-- Entry to FAULTED (11 R182). -/
def State.enterFaulted (s : State) (code : FaultCode) (source : FaultSource) : State :=
  State.updateNotify
    { s with
      ctl := { s.ctl with state := .faulted, loadEnding := false, faultCode := code, faultSource := source }
      fetcher := { s.fetcher with outstanding := none, kept := [] }
      table := Vector.replicate 64 none
      dispatched := []
      fences := Vector.replicate 4 none
      fencesDone := []
      backlog := { s.backlog with entries := [], waiting := [] }
      writer := { s.writer with outstanding := none }
      reports := []
      lines := s.lines.map Line.shutDown
      notice := { s.notice with cqs := s.notice.cqs.map (fun c => { c with timer := none }), faultRequest := true } }

/-- Every block takes its reset values (11 R183): QBASE and the last reset cause are given, and so is the level of
RESETn. The queue of commands and the model's own fields stay. -/
def State.takeReset (s : State) (cause : ResetCause) (qbase : Addr) (resetHigh : Bool) : State :=
  { State.reset with
    ctl := { State.reset.ctl with cause, qbase, resetHigh, busWord := s.ctl.busWord }
    offersMade := s.offersMade
    pending := s.pending }

/-- A register write, taken only while the register window takes writes (11 R183, R184). -/
def State.write (s : State) (f : Controller → State) : Host.Outcome State Fault Refusal :=
  if s.ctl.windowOpen then .next (f s.ctl) else .next s

def State.misplaced (s : State) : State := { s with ctl := { s.ctl with misplacedWrite := true } }

def State.outOfRange (s : State) : State := { s with ctl := { s.ctl with rangeError := true } }

/-! ### Rings (08) -/

/-- The posted count: (tail − head) mod size (08 R140). -/
def postedCount (size : Nat) (r : SqRing) (tail : Nat) : Nat := (tail + size - r.head) % size

/-- The SQ is eligible: used, with a posted record, and not held by a FENCE (08 R142, R145). -/
def State.eligible (s : State) (q : SqNo) : Bool :=
  sqSize s.block q != 0 && decide (1 ≤ postedCount (sqSize s.block q) s.fetcher.rings[q] s.fetcher.rings[q].tail)
    && s.fences[q].isNone

/-- The SQ holding the turn gives up its credit at the moment it loses its eligibility (08 R143). -/
def State.giveUpCredit (s : State) (q : SqNo) : State :=
  if s.fetcher.turn = q ∧ s.eligible q = false then { s with fetcher := { s.fetcher with credit := 0 } } else s

/-- The next slot of a ring (08 R140, R147). -/
def nextSlot (size slot : Nat) : Nat := if slot + 1 < size then slot + 1 else 0

end Sys2Proof.Machine
end

