-- ==== Sys2Proof/Machine/HostWrites.lean ====
section
/-! DEFINITION. The host's accesses to the register window and the resets: START, STOP, RESET,
CONTROL_UNKNOWN_COMMAND, CONTROLLER_RESET_TAKE, DEVICE_RESET_ASSERT, DEVICE_RESET_RELEASE, STATUS_WRITE,
QBASE_LO_WRITE, QBASE_HI_WRITE, POST, RELEASE, CLAIM, ENDSERV, REGISTER_WRITE_IGNORED (chapters 8, 9, 11). -/

namespace Sys2Proof.Machine

/-- The descriptor read number k: 32 bytes at QBASE + 32k (08 R137, 10 Table 10.1). -/
def descriptorRead (qbase : Addr) (k : Fin 4) : Transfer :=
  { kind := .descriptorRead k, extent := { address := qbase + BitVec.ofNat 40 (32 * k.val), size := 32, bytes := [] } }

/-- START: taken in STOPPED, to LOADING, and the first descriptor read is requested (11 R177). -/
def execStart (_upper : BitVec 24) (s : State) : Host.Outcome State Fault Refusal :=
  s.write fun c =>
    if c.state = .stopped then
      { s with ctl := { c with state := .loading, loadEnding := false },
               fetcher := { s.fetcher with outstanding := some (descriptorRead c.qbase 0), kept := [] } }
    else s.misplaced

/-- The producers of all lines. -/
def allLineProducers : List Producer := lineNumbers.flatMap lineProducers

/-- The controller passes from DRAINING to STOPPED if the request table and the backlog are both empty (11 R181). -/
def State.drained (s : State) : State :=
  if s.ctl.state = .draining ∧ s.tableEmpty ∧ s.backlog.entries = [] then
    { s with ctl := { s.ctl with state := .stopped } }
  else s

/-- STOP: from RUNNING to DRAINING with its effects on the lines (11 R180), at once to STOPPED if there is nothing to
drain (R181); in LOADING it ends the loading (R179). -/
def execStop (_upper : BitVec 24) (s : State) : Host.Outcome State Fault Refusal :=
  s.write fun c =>
    match c.state with
    | .running =>
      (State.settle allLineProducers settleBound
        { s with ctl := { c with state := .draining }, lines := s.lines.map Line.stop }).drained
    | .loading => { s with ctl := { c with loadEnding := true } }
    | _ => s.misplaced

/-- RESET: a controller reset begins, in every controller state (11 R183, 10 R174). -/
def execReset (_upper : BitVec 24) (s : State) : Host.Outcome State Fault Refusal :=
  s.write fun c => { s with ctl := { c with resetWaits := true } }

/-- A CONTROL write with another command code sets RANGE_ERROR (11 R186). -/
def execControlUnknownCommand (value : Word) (s : State) : Host.Outcome State Fault Refusal :=
  s.write fun _ => if knownControlCode value then s else s.outOfRange

/-- The controller reset that waits is taken once no transfer is in flight (11 R183, 10 R174); QBASE keeps its value. -/
def execControllerResetTake (s : State) : Host.Outcome State Fault Refusal :=
  if s.ctl.resetWaits ∧ s.ctl.resetHigh ∧ s.port.inFlight = none then
    .next (s.takeReset .control s.ctl.qbase true)
  else .next s

/-- RESETn falls: a transfer in flight is cut, a waiting controller reset is abandoned, every block takes its reset
values and the pins their DISABLED levels (11 R184, 10 R175). (DEDUCED: notes/assumptions/22.md). -/
def execDeviceResetAssert (s : State) : Host.Outcome State Fault Refusal :=
  if s.ctl.resetHigh then .next (s.takeReset .power 0 false) else .next s

/-- RESETn rises: every block holds its reset values, QBASE 0, last reset cause POWER (11 R184). -/
def execDeviceResetRelease (s : State) : Host.Outcome State Fault Refusal :=
  if s.ctl.resetHigh then .next s else .next (s.takeReset .power 0 true)

/-- A STATUS write clears each flag written with a 1: MISPLACED_WRITE is bit 16, RANGE_ERROR bit 17 (11 R187). -/
def execStatusWrite (value : Word) (s : State) : Host.Outcome State Fault Refusal :=
  s.write fun c =>
    { s with ctl := { c with misplacedWrite := c.misplacedWrite && !value.getLsbD 16,
                             rangeError := c.rangeError && !value.getLsbD 17 } }

/-- A QBASE_LO write in STOPPED replaces address bits 7 to 31 (11 R188). -/
def execQbaseLoWrite (value : Word) (s : State) : Host.Outcome State Fault Refusal :=
  s.write fun c =>
    if c.state = .stopped then
      { s with ctl := { c with qbase := c.qbase.extractLsb' 32 8 ++ (value.extractLsb' 7 25 ++ 0#7) } }
    else s.misplaced

/-- A QBASE_HI write in STOPPED replaces address bits 32 to 39 (11 R188). -/
def execQbaseHiWrite (value : Word) (s : State) : Host.Outcome State Fault Refusal :=
  s.write fun c =>
    if c.state = .stopped then
      { s with ctl := { c with qbase := value.extractLsb' 0 8 ++ c.qbase.extractLsb' 0 32 } }
    else s.misplaced

/-- The ring position of a POST or RELEASE word, bits 0 to 9 (11 Table 11.6). -/
def ringPosition (value : Word) : Nat := (value.extractLsb' 0 10).toNat

/-- The ring number of a POST or RELEASE word, bits 16 to 17 (11 Table 11.6). -/
def ringNumber (value : Word) : Fin 4 := Fin.ofNat 4 (value.extractLsb' 16 2).toNat

/-- The controller is RUNNING or DRAINING. -/
def Controller.active (c : Controller) : Bool := c.state == .running || c.state == .draining

/-- The effect of a POST of `tail` for SQ `q` (08 R141). -/
def State.takePost (s : State) (q : SqNo) (tail : Nat) : State :=
  let size := sqSize s.block q
  let r := s.fetcher.rings[q]
  if !s.ctl.active then s.misplaced
  else if size = 0 ∨ size ≤ tail then s.outOfRange
  else if postedCount size r tail < postedCount size r r.tail then s.outOfRange
  else { s with fetcher := { s.fetcher with rings := s.fetcher.rings.set q { r with tail := tail } } }

/-- POST (08 R141). -/
def execPost (value : Word) (s : State) : Host.Outcome State Fault Refusal :=
  s.write fun _ => s.takePost (ringNumber value) (ringPosition value)

/-- The host's head of a CQ ring: (tail − occupancy) mod size (08 R147). -/
def hostHead (size : Nat) (r : CqRing) : Nat := (r.tail + size - r.occupancy) % size

/-- The released amount of a RELEASE of `head` (08 R151 case 3). -/
def releasedAmount (size : Nat) (r : CqRing) (head : Nat) : Nat :=
  let amount := (head + size - hostHead size r) % size
  if amount = 0 ∧ r.occupancy = size then size else amount

/-- The effect of a RELEASE of `head` for CQ `q` (08 R151). -/
def State.takeRelease (s : State) (q : CqNo) (head : Nat) : State :=
  let size := cqSize s.block q
  let r := s.writer.rings[q]
  if !s.ctl.active then s.misplaced
  else if size = 0 ∨ size ≤ head then s.outOfRange
  else if r.occupancy < releasedAmount size r head then s.outOfRange
  else
    { s with writer := { s.writer with
        rings := s.writer.rings.set q { r with occupancy := r.occupancy - releasedAmount size r head } } }

/-- RELEASE (08 R151). -/
def execRelease (value : Word) (s : State) : Host.Outcome State Fault Refusal :=
  s.write fun _ => s.takeRelease (ringNumber value) (ringPosition value)

/-- The state changes of a CLAIM read (09 R162, Table 9.2). -/
def State.takeClaim (s : State) : Claim → State
  | .fault => { s with notice := { s.notice with inService := s.notice.inService ||| levelBit 5 } }
  | .cq q =>
    { s.setCqNotice q { newCount := 0, timer := none, flag := false } with
      notice := { (s.setCqNotice q { newCount := 0, timer := none, flag := false }).notice with
        inService := s.notice.inService ||| levelBit (cqLevel s.block q) } }
  | .nothing => s

/-- CLAIM: a read of CLAIM chooses, answers and changes state at one moment (09 R161, R162). While a controller reset
waits it returns NONE and changes nothing (11 R183); while RESETn is low it reads 0 (R184). -/
def execClaim (lanes : Lanes) (s : State) : Host.Outcome State Fault Refusal :=
  if s.ctl.windowOpen then
    let choice := claimChoice s.block s.notice
    let s1 := (s.takeClaim choice).updateNotify
    .next { s1 with ctl := { s1.ctl with busWord := claimWord s.block s.notice choice &&& laneMask lanes } }
  else .next { s with ctl := { s.ctl with busWord := 0 } }

/-- ENDSERV removes the top of the in-service set, whatever value is written (09 R164). -/
def execEndserv (_value : Word) (s : State) : Host.Outcome State Fault Refusal :=
  s.write fun _ =>
    if topLevel s.notice.inService = 0 then s
    else
      State.updateNotify
        { s with notice := { s.notice with
            inService := s.notice.inService &&& ~~~ levelBit (topLevel s.notice.inService) } }

/-- A write to a read-only register or an unassigned offset, or of part of a word, is ignored and sets no flag
(11 R185). -/
def execRegisterWriteIgnored (_w : IgnoredWrite) (s : State) : Host.Outcome State Fault Refusal := .next s

end Sys2Proof.Machine
end

