-- ==== Sys2Proof/Machine/Fetch.lean ====
section
/-! DEFINITION. Descriptor reads, fetching, dispatch and the fence logic: DESCRIPTOR_READ_END, FETCH_ISSUE,
RECORD_FETCH_END, FENCE_WAIT_SET_EMPTY (chapters 1, 8, 11). -/

namespace Sys2Proof.Machine

/-- A line whose event CQ is unused in the new block has its event enable set emptied (07 R135). -/
def Line.dropUnusedEvents (block : Option Block) (l : Line) : Line :=
  if cqSize block l.record.eventCq = 0 then { l with record := { l.record with enable := 0 } } else l

/-- A valid block becomes the loaded block and the controller enters RUNNING (08 R139, 11 R178). -/
def State.loadBlock (s : State) (b : Block) : State :=
  State.updateNotify
    { s with
      ctl := { s.ctl with state := .running }
      block := some b
      fetcher := .rest
      fences := Vector.replicate 4 none
      writer := .rest
      notice := { s.notice with cqs := Notification.rest.cqs }
      lines := s.lines.map (Line.dropUnusedEvents (some b)) }

/-- An invalid block: no block is loaded, heads, tails and occupancies are 0 and lap bits 1, and the controller enters
FAULTED (08 R139, 11 R178). -/
def State.refuseBlock (s : State) (source : FaultSource) : State :=
  State.enterFaulted
    { s with
      block := none
      fetcher := { s.fetcher with rings := Fetcher.rest.rings }
      writer := { s.writer with rings := Writer.rest.rings } }
    .descriptorInvalid source

/-- The end of descriptor read k in LOADING (08 R137, 11 R178, R179). -/
def State.descriptorReadOver (s : State) (k : Fin 4) (e : ReadEnd Record) : State :=
  let s1 := { s with fetcher := { s.fetcher with outstanding := none } }
  if s.ctl.loadEnding then
    { s1 with ctl := { s.ctl with state := .stopped, loadEnding := false },
              fetcher := { s1.fetcher with kept := [] } }
  else
    match e with
    | .busError => s1.enterFaulted .descriptorRead .none
    | .ok bytes =>
      let kept := s.fetcher.kept ++ bytes.toList
      if h : k.val < 3 then
        { s1 with fetcher := { s1.fetcher with
            outstanding := some (descriptorRead s.ctl.qbase ⟨k.val + 1, by omega⟩), kept } }
      else
        match examine kept with
        | .valid b => s1.loadBlock b
        | .invalid source => s1.refuseBlock source

/-- The number of the descriptor read, if the transfer is one. -/
def TransferKind.descriptorIndex : TransferKind → Option (Fin 4)
  | .descriptorRead k => some k
  | _ => none

/-- DESCRIPTOR_READ_END (08 R137, 11 R178, R179). -/
def execDescriptorReadEnd (e : ReadEnd Record) (s : State) : Host.Outcome State Fault Refusal :=
  s.endTransfer (fun k => k.descriptorIndex.isSome) fun t s1 =>
    match t.kind.descriptorIndex with
    | some k => .next (s1.descriptorReadOver k e)
    | none => .next s1

/-! ### The fetch arbiter (08 R142, R143) -/

/-- The SQ the fetcher chooses, with the credit its turn has before this fetch: the SQ holding the turn if it is
eligible with credit left, otherwise the first eligible SQ after it, with its weight (08 R143). -/
def State.chooseSq (s : State) : Option (SqNo × Nat) :=
  if s.eligible s.fetcher.turn ∧ 1 ≤ s.fetcher.credit then some (s.fetcher.turn, s.fetcher.credit)
  else
    match (searchAfter ringNumbers s.fetcher.turn).find? s.eligible with
    | some q => some (q, match s.block with | some b => b.sqs[q].weight | none => 0)
    | none => none

/-- The record fetch of the slot at the fetch head of an SQ (08 R144). -/
def recordFetch (b : Block) (q : SqNo) (r : SqRing) (slot : Slot) : Transfer :=
  { kind := .recordFetch q slot,
    extent := { address := b.sqs[q].base + BitVec.ofNat 40 (32 * r.head), size := 32, bytes := [] } }

/-- FETCH_ISSUE: in RUNNING, with no fetch outstanding, a free entry and an eligible SQ (08 R142, R143, 01 R3). -/
def execFetchIssue (s : State) : Host.Outcome State Fault Refusal :=
  if s.ctl.state = .running ∧ s.fetcher.outstanding = none then
    match s.block, s.freeSlots, s.chooseSq with
    | some b, slot :: _, some (q, credit) =>
      .next
        { s with
          fetcher := { s.fetcher with turn := q, credit := credit - 1,
                                      outstanding := some (recordFetch b q s.fetcher.rings[q] slot) }
          table := s.table.set slot (some { sq := q, cq := b.sqs[q].cq, header := none }) }
    | _, _, _ => .next s
  else .next s

/-! ### Dispatch (01 R8 to R14) -/

/-- A record refused or completed at once is a FINISHING entry of the dispatcher, with count and detail 0
(01 R8, R10). -/
def State.completeAtOnce (s : State) (slot : Slot) (st : Status) : State :=
  { s with dispatched := s.dispatched ++ [(slot, { status := st, count := 0, detail := 0 })] }

/-- A FENCE is taken by the fence logic: its wait set is the entries in use of its SQ other than itself (01 R14). -/
def State.takeFence (s : State) (q : SqNo) (slot : Slot) : State :=
  let members := (s.slotsOf q).erase slot
  { s with fences := s.fences.set q (some { slot, waitSet := members, count := members.length }) }

/-- An accepted record goes to its destination (01 R11); in DRAINING a data record completes STOPPED at once
(01 R13). -/
def State.route (s : State) (q : SqNo) (slot : Slot) (line : LineNo) (b : Body) : State :=
  let l := s.line line
  match b with
  | .fence => s.takeFence q slot
  | .command c => s.setLine line (l.joinControl slot c)
  | .send w =>
    if s.ctl.state = .draining then s.completeAtOnce slot .stopped
    else if l.isPoll then s.setLine line (l.joinPolls slot (.send w))
    else s.setLine line (l.joinSends slot w)
  | .buffer w =>
    if s.ctl.state = .draining then s.completeAtOnce slot .stopped else s.setLine line (l.joinBuffers slot w)
  | .poll w =>
    if s.ctl.state = .draining then s.completeAtOnce slot .stopped
    else s.setLine line (l.joinPolls slot (.poll w))

/-- The dispatcher takes a record whole (01 R8): it validates it, and refuses it or routes it. -/
def State.dispatch (s : State) (q : SqNo) (slot : Slot) (bytes : List Byte) : State :=
  match verdict s.block s.lines bytes with
  | .refused st line =>
    State.completeAtOnce
      (s.setEntry slot ((s.entry slot).map fun e => { e with header := some (headerOf bytes line) })) slot st
  | .accepted line b =>
    State.route
      (s.setEntry slot ((s.entry slot).map fun e => { e with header := some (headerOf bytes line) })) q slot
      (line.getD 0) b

/-- A record fetch has ended OK: the fetch head advances, the record is dispatched, the turn's credit is given up if the
SQ has lost its eligibility, and the dispatcher offers what it holds (08 R143, R144, 01 R8). -/
def State.recordFetched (s : State) (q : SqNo) (slot : Slot) (bytes : List Byte) : State :=
  let r := s.fetcher.rings[q]
  let s1 :=
    { s with fetcher := { s.fetcher with
        rings := s.fetcher.rings.set q { r with head := nextSlot (sqSize s.block q) r.head } } }
  State.settle [.dispatcher] settleBound ((s1.dispatch q slot bytes).giveUpCredit q)

/-- The SQ and the reserved entry of a record fetch, if the transfer is one. -/
def TransferKind.fetchOf : TransferKind → Option (SqNo × Slot)
  | .recordFetch q slot => some (q, slot)
  | _ => none

/-- RECORD_FETCH_END (08 R144, 01 R3). -/
def execRecordFetchEnd (e : ReadEnd Record) (s : State) : Host.Outcome State Fault Refusal :=
  s.endTransfer (fun k => k.fetchOf.isSome) fun t s1 =>
    match t.kind.fetchOf with
    | some (q, slot) =>
      let s2 := { s1 with fetcher := { s1.fetcher with outstanding := none } }
      match e with
      | .ok bytes => .next (s2.recordFetched q slot bytes.toList)
      | .busError => .next (s2.enterFaulted .sqFetch (.sq q))
    | none => .next s1

/-- FENCE_WAIT_SET_EMPTY: a FENCE whose wait set is empty has its completion composed, and the hold on its SQ ends
(01 R15, 08 R145). -/
def execFenceWaitSetEmpty (q : SqNo) (s : State) : Host.Outcome State Fault Refusal :=
  match s.fences[q] with
  | some f =>
    if f.waitSet.isEmpty then
      .next (State.settle [.fence] settleBound
        { s with
          fences := s.fences.set q none
          fencesDone := s.fencesDone ++ [(f.slot, { status := .ok, count := BitVec.ofNat 16 f.count, detail := 0 })] })
    else .next s
  | none => .next s

end Sys2Proof.Machine
end

