-- ==== Sys2Proof/Machine/Fill.lean ====
section
/-! DEFINITION. The buffer filler: FILLER_TAKE_ENTRY and RX_BUFFER_WRITE_END (chapter 4). -/

namespace Sys2Proof.Machine

/-- What one staging entry does to the head buffer (04 Table 4.3). -/
structure Handling where
  taken : Bool
  stored : Bool
  error : Bool
  dropped : Bool
  firstMarked : Bool
  close : CloseReason
  deriving DecidableEq, Repr

/-- The reason a mark closes the buffer with after a stored character (04 R73). -/
def markReason : Option CloseMark → CloseReason
  | some .idleGap => .idleGap
  | some .flush => .flush
  | none => .none

/-- The reason a mark closes the buffer with on an entry not stored: IDLE_GAP needs a character assigned, FLUSH always
closes (04 R73). -/
def markReasonUnstored (fill : Nat) : Option CloseMark → CloseReason
  | some .idleGap => if 1 ≤ fill then .idleGap else .none
  | some .flush => .flush
  | none => .none

/-- The close of a stored character: DELIMITER, then FULL, then its mark (04 R71, R73, R74). -/
def storedClose (r : LineRecord) (b : BufferBody) (fill : Nat) (e : Staged) : CloseReason :=
  if r.delimiter = some e.value then .delimiter
  else if b.capacity ≤ fill + 1 then .full
  else markReason e.close

/-- How the filler handles the entry at the staging head (04 R69 to R74, Table 4.3). -/
def handling (r : LineRecord) (b : BufferBody) (fill : Nat) (e : Staged) : Handling :=
  if e.brk then
    { taken := true, stored := false, error := false, dropped := false, firstMarked := false,
      close := if 1 ≤ fill then .brk else markReasonUnstored fill e.close }
  else if e.framing || e.parity then
    match r.policy with
    | .keep => { taken := true, stored := true, error := true, dropped := false, firstMarked := false,
                 close := storedClose r b fill e }
    | .drop => { taken := true, stored := false, error := false, dropped := true, firstMarked := false,
                 close := markReasonUnstored fill e.close }
    | .close => { taken := true, stored := true, error := true, dropped := false, firstMarked := false,
                  close := .errorChar }
  else if e.mark && decide (1 ≤ fill) then
    { taken := false, stored := false, error := false, dropped := false, firstMarked := false, close := .address }
  else
    { taken := true, stored := true, error := false, dropped := false, firstMarked := e.mark,
      close := storedClose r b fill e }

/-- The flush record after an entry was taken for the buffer `slot`: one entry fewer is ahead of the marked one, or the
marked one itself was taken and closes the buffer (04 R81, R82). (DEDUCED: notes/assumptions/19.md). -/
def FlushRecord.afterTake (slot : Slot) (f : FlushRecord) : FlushRecord :=
  if f.slot = slot then
    match f.ahead with
    | some 0 => { f with atMark := true, ahead := none }
    | some (k + 1) => { f with ahead := some k }
    | none => f
  else f

/-- The counts, the assembly and the flush record after an entry was taken (04 Table 4.3). -/
def Filler.afterTake (f : Filler) (slot : Slot) (h : Handling) (e : Staged) : Filler :=
  { f with
    fill := f.fill + h.stored.toNat
    errors := saturate 255 (f.errors + h.error.toNat)
    dropped := saturate 255 (f.dropped + h.dropped.toNat)
    firstMarked := f.firstMarked || h.firstMarked
    assembly := if h.stored then f.assembly ++ [e.value] else f.assembly
    flush := f.flush.map (FlushRecord.afterTake slot) }

/-- FILLER_TAKE_ENTRY: in FILLING, with an entry staged and room in the write assembly (04 R68). -/
def Line.fillerTake (l : Line) : Option Line :=
  match l.filler.state, l.filler.list, l.rx.fifo with
  | .filling, m :: _, e :: _ =>
    if l.filler.hasRoom then
      let h := handling l.record m.body l.filler.fill e
      let l1 :=
        if h.taken then Line.dropStagedHead { l with filler := l.filler.afterTake m.slot h e } else l
      some (if h.close = .none then l1.requestBufferWrite else l1.closeBuffer h.close)
    else none
  | _, _, _ => none

def execFillerTakeEntry (n : LineNo) (s : State) : Host.Outcome State Fault Refusal := onLine n Line.fillerTake s

/-- A buffer write has ended OK: the written count rises, the next write is requested, and a closing buffer with nothing
left to write completes (04 R76, R77). -/
def Line.bufferWritten (l : Line) (size : Nat) : Line :=
  Line.composeBuffer (Line.requestBufferWrite
    { l with filler := { l.filler with outstanding := none, written := l.filler.written + size } })

/-- A buffer write has ended with BUS_ERROR: its bytes and those in the assembly are added to the lost count, and the
buffer completes at once, with the status of an abort, STOP or DISABLE that had reached it, or BUS_ERROR
(04 R67, R80, R83). (DEDUCED: notes/assumptions/16.md). The armed flag stays as it is (DESIGN CHOICE:
notes/assumptions/30.md). -/
def Line.bufferWriteFailed (l : Line) (size : Nat) : Line :=
  let lost := size + l.filler.assembly.length
  let l1 := Line.addLost { l with filler := { l.filler with outstanding := none, assembly := [] } } lost
  if l.filler.state = .filling ∨ l.filler.state = .closing then
    l1.offerBuffer (l.filler.endStatus.getD .busError)
  else l1

/-- RX_BUFFER_WRITE_END (04 R76, R80). -/
def execRxBufferWriteEnd (n : LineNo) (e : WriteEnd) (s : State) : Host.Outcome State Fault Refusal :=
  s.endTransfer (fun k => k == .rxBufferWrite n) fun t s1 =>
    match e with
    | .ok => .next (s1.updateLine n ((s1.line n).bufferWritten t.extent.size))
    | .busError => .next (s1.updateLine n ((s1.line n).bufferWriteFailed t.extent.size))

end Sys2Proof.Machine
end

