-- ==== Sys2Proof/Machine/LineControl.lean ====
section
/-! DEFINITION. Line commands at the head of the control list, and the report writer: CONFIGURE_LINE, ENABLE_LINE,
DISABLE_LINE, DISABLED_STEP, QUERY_LINE, ABORT_LINE, RESUME_RX, FLUSH_RX, REPORT_WRITE_END (chapter 2). -/

namespace Sys2Proof.Machine

/-- A command refused at the head completes BAD_STATE with count 0 and detail 0 (02 R32). -/
def Line.badState (l : Line) : Line := l.finishCommand .badState 0 0

/-- CONFIGURE_LINE at the head (02 R33). -/
def Line.configure (l : Line) : Option Line :=
  match l.headCommand with
  | some (.configure r) =>
    some (if l.state = .disabled then Line.finishCommand { l with record := r } .ok 0 0 else l.badState)
  | _ => none

def execConfigureLine (n : LineNo) (s : State) : Host.Outcome State Fault Refusal := onLine n Line.configure s

/-- A configured DISABLED line enters ENABLED (02 R34, Table 2.6, 03 Table 3.10, 06 Table 6.7). -/
def Line.enabled (l : Line) : Line :=
  let stream := l.record.mode == .stream
  Line.rxHunt
    { l with
      state := .enabled
      rate := some l.record.samplePeriods
      rts := stream
      de := stream
      rx := { l.rx with fifo := [], held := false, idleTimer := none, armed := false }
      tx := { l.tx with state := .idle, txd := .mark }
      poll := { l.poll with attempt := .none, window := false, quiet := !stream } }

/-- ENABLE_LINE at the head (02 R34). -/
def Line.enable (l : Line) : Option Line :=
  match l.headCommand with
  | some .enable =>
    some (if l.state = .disabled ∧ l.record.configured then l.enabled.finishCommand .ok 0 0 else l.badState)
  | _ => none

def execEnableLine (n : LineNo) (s : State) : Host.Outcome State Fault Refusal := onLine n Line.enable s

/-- The entries of a line that a DISABLE_LINE completes (02 R35, 04 R85, 05 R103, 06 R125). -/
def Line.reachedByDisable (l : Line) : List Slot :=
  if l.isPoll then l.reachedPolls else l.reachedSends ++ l.reachedBuffers

/-- Entry to DISABLING (02 R35): the receiver goes OFF, RTS is deasserted, the data units end their records with
LINE_DISABLED; the quiet timer stops (06 R125). -/
def Line.beginDisabling (l : Line) : Line :=
  let l1 := Line.rxOff { l with state := .disabling, rts := false, progress := .disable l.reachedByDisable.length,
                                poll := { l.poll with quiet := false } }
  if l.isPoll then l1.endPolls .lineDisabled else (l1.endSends .lineDisabled).endBuffers .lineDisabled

/-- DISABLE_LINE at the head (02 R35, Table 2.8). -/
def Line.disable (l : Line) : Option Line :=
  match l.headCommand with
  | some .disable =>
    match l.state with
    | .enabled => some l.beginDisabling
    | .disabled => some (l.finishCommand .ok 0 0)
    | .disabling => none
  | _ => none

def execDisableLine (n : LineNo) (s : State) : Host.Outcome State Fault Refusal := onLine n Line.disable s

/-- The DISABLED step of a line whose data lists are empty (02 R36): the FIFO is discarded, HELD and the armed flag
cleared, the outputs idle, the rate generator stopped; the DISABLE_LINE completes with its count. -/
def Line.disabledStep (l : Line) : Option Line :=
  match l.state, l.progress with
  | .disabling, .disable count =>
    if l.tx.list.isEmpty ∧ l.filler.list.isEmpty ∧ l.poll.list.isEmpty then
      some (Line.finishCommand
        { l with
          state := .disabled
          rate := none
          rts := false
          de := false
          rx := { l.rx with fifo := [], held := false, armed := false }
          tx := { l.tx with txd := .mark } } .ok count 0)
    else none
  | _, _ => none

def execDisabledStep (n : LineNo) (s : State) : Host.Outcome State Fault Refusal := onLine n Line.disabledStep s

/-- QUERY_LINE at the head: a snapshot of the line is handed to the report writer with the report address
(02 R37, R38). -/
def execQueryLine (n : LineNo) (s : State) : Host.Outcome State Fault Refusal :=
  let l := s.line n
  match l.headCommand with
  | some (.query address) =>
    .next
      { s.setLine n { l with progress := .query } with
        reports := s.reports ++ [{ line := n, extent := { address, size := 32, bytes := reportBytes l } }] }
  | _ => .next s

/-- The report write of line n's QUERY_LINE has ended (02 R37). -/
def Line.reportWritten (l : Line) (e : WriteEnd) : Line :=
  match l.progress, e with
  | .query, .ok => l.finishCommand .ok 32 0
  | .query, .busError => l.finishCommand .busError 0 0
  | _, _ => l

/-- The line of a report write, if the transfer is one. -/
def TransferKind.reportOf : TransferKind → Option LineNo
  | .reportWrite n => some n
  | _ => none

/-- REPORT_WRITE_END: the report writer tells the line control unit and turns to the next snapshot (02 R37, R38). -/
def execReportWriteEnd (e : WriteEnd) (s : State) : Host.Outcome State Fault Refusal :=
  s.endTransfer (fun k => k.reportOf.isSome) fun t s1 =>
    match t.kind.reportOf with
    | some n =>
      .next (State.updateLine { s1 with reports := s1.reports.tail } n ((s1.line n).reportWritten e))
    | none => .next s1

/-- The entries of a line that an ABORT_LINE of a class completes (02 Table 2.10). -/
def Line.reachedByAbort (l : Line) (c : AbortClass) : List Slot :=
  if l.isPoll then l.reachedPolls
  else
    match c with
    | .tx => l.reachedSends
    | .rx => l.reachedBuffers
    | .all => l.reachedSends ++ l.reachedBuffers

/-- The units named by an ABORT_LINE's class end their records with ABORTED (02 R39, Table 2.10). -/
def Line.abortUnits (l : Line) (c : AbortClass) : Line :=
  if l.isPoll then l.endPolls .aborted
  else
    match c with
    | .tx => l.endSends .aborted
    | .rx => l.endBuffers .aborted
    | .all => (l.endSends .aborted).endBuffers .aborted

/-- ABORT_LINE at the head (02 R39, Table 2.8): it completes at once if it reaches no record, and otherwise when the
completion of every record it aborted has entered the backlog. -/
def Line.abort (l : Line) : Option Line :=
  match l.headCommand with
  | some (.abort c) =>
    match l.state with
    | .disabled => some (l.finishCommand .ok 0 0)
    | .enabled =>
      if l.isPoll ∧ c ≠ .all then some l.badState
      else
        let slots := l.reachedByAbort c
        if slots.isEmpty then some (l.finishCommand .ok 0 0)
        else some (Line.abortUnits { l with progress := .abort slots slots.length } c)
    | .disabling => none
  | _ => none

def execAbortLine (n : LineNo) (s : State) : Host.Outcome State Fault Refusal := onLine n Line.abort s

/-- HELD ends, and RTS follows the staging count (02 R40, 03 R56, R59). -/
def Line.endHeld (l : Line) : Line :=
  if l.rx.held then
    let l1 := { l with rx := { l.rx with held := false } }
    if l.state = .enabled then l1.rtsAfterTake else l1
  else l

/-- RESUME_RX at the head: it reports and clears the lost count and ends HELD (02 R40, 03 R56, R57). -/
def Line.resume (l : Line) : Option Line :=
  match l.headCommand with
  | some .resumeRx =>
    some (Line.finishCommand (Line.endHeld { l with rx := { l.rx with lost := 0 } }) .ok l.rx.lost 0)
  | _ => none

def execResumeRx (n : LineNo) (s : State) : Host.Outcome State Fault Refusal := onLine n Line.resume s

/-- FLUSH_RX at the head (02 R41, Table 2.8, 04 R81). -/
def Line.flush (l : Line) : Option Line :=
  match l.headCommand with
  | some .flushRx =>
    match l.state with
    | .disabled => some (l.finishCommand .ok 0 (flushDetail .nothingClosed 0))
    | .enabled => some (if l.isPoll then l.badState else l.takeUpFlush)
    | .disabling => none
  | _ => none

def execFlushRx (n : LineNo) (s : State) : Host.Outcome State Fault Refusal := onLine n Line.flush s

end Sys2Proof.Machine
end

