-- ==== Sys2Proof/Machine/Polling.lean ====
section
/-! DEFINITION. The poll engine: POLL_TAKE_RECORD, GUARD_END, AWAIT_ENTRY, POLL_TAKE_ENTRY, REPLY_TIMEOUT,
REPLY_GAP_FIRE, REPLY_WRITE_END, ATTEMPT_END (chapter 6). -/

namespace Sys2Proof.Machine

/-- The first attempt number of a record: 1 for a POLL (06 R108); a SEND has no attempts. -/
def PollWork.firstAttempt : PollWork → Nat
  | .poll _ => 1
  | .send _ => 0

/-- POLL_TAKE_RECORD: the engine, with no current record and no completion waiting, takes the LISTED head of the POLL
work list and enters GUARD (06 R106, R108, R110). -/
def Line.takePoll (l : Line) : Option Line :=
  match l.poll.list with
  | m :: _ =>
    if l.isPoll ∧ l.poll.attempt = .none ∧ m.phase = .listed then
      some { l with poll := { l.poll with
        list := activateHead l.poll.list, attempt := .guard, attemptNumber := m.body.firstAttempt, outcome := .none,
        lastOutcome := .none, seen := 0, fill := 0, written := 0, endStatus := none,
        guardSpan := some (l.record.characterTimes l.record.guardTime.toNat) } }
    else none
  | [] => none

def execPollTakeRecord (n : LineNo) (s : State) : Host.Outcome State Fault Refusal := onLine n Line.takePoll s

/-- The job the transmitter gets for a record: a SEND as it stands, or a request of the station address and the payload,
with no break and no gap (05 R105, 06 R111, R113). -/
def PollWork.job : PollWork → TxJob
  | .send b => { send := b, station := none }
  | .poll b =>
    { send := { address := b.payloadAddress, length := b.payloadLength, breakBefore := 0, gap := 0,
                markFirst := false, ctsLimit := 0 },
      station := some b.station }

/-- GUARD_END: the quiet timer has reached the guard time; DE is asserted, the receiver goes OFF, and the transmitter
begins the request or the SEND (06 R110, R111, R113, 03 R44). -/
def Line.guardEnd (l : Line) : Option Line :=
  match l.poll.attempt, l.poll.headWork with
  | .guard, some w =>
    let l1 := Line.beginJob
      (Line.rxOff { l with de := true, poll := { l.poll with attempt := .request, guardSpan := none } }) w.job
    some (if w.job.station.isSome then l1.startCharacter else l1)
  | _, _ => none

def execGuardEnd (n : LineNo) (s : State) : Host.Outcome State Fault Refusal := onLine n Line.guardEnd s

/-- AWAIT_ENTRY: one sample after RELEASE the engine is in AWAIT (06 R112). -/
def Line.awaitEntry (l : Line) : Option Line :=
  if l.poll.attempt = .release then some { l with poll := { l.poll with attempt := .await } } else none

def execAwaitEntry (n : LineNo) (s : State) : Host.Outcome State Fault Refusal := onLine n Line.awaitEntry s

/-- An entry taken in AWAIT: stray, the reply start, or ADDRESS_MISMATCH (06 R115). -/
def Line.judgeAwait (l : Line) (e : Staged) : Line :=
  let b := l.poll.headPoll
  if e.framing || e.brk || !e.mark then l.addStray
  else if e.value = b.station then
    let l1 := { l with poll := { l.poll with
      attempt := .reply, replyTimer := none, gapTimer := some (l.record.characterTimes b.replyGap) } }
    if b.replyEnd = .length ∧ b.replyCapacity = 0 then l1.decideOutcome .ok else l1
  else l.decideOutcome .addressMismatch

/-- A reply data byte is stored (06 R116 case 4). -/
def Line.storeReply (l : Line) (e : Staged) : Line :=
  let l1 := { l with poll := { l.poll with assembly := l.poll.assembly ++ [e.value], fill := l.poll.fill + 1 } }
  if l.poll.headPoll.replyEnd = .length ∧ l.poll.headPoll.replyCapacity ≤ l.poll.fill + 1 then l1.decideOutcome .ok
  else l1

/-- An entry taken in REPLY: FRAMING, COLLISION, OVERLONG or reply data (06 R116). -/
def Line.judgeReply (l : Line) (e : Staged) : Line :=
  let b := l.poll.headPoll
  if e.framing || e.brk then l.decideOutcome .framing
  else if e.mark then l.decideOutcome .collision
  else if b.replyEnd = .gap ∧ l.poll.fill = b.replyCapacity then l.decideOutcome .overlong
  else l.storeReply e

/-- The outcome of a reply gap that has passed (06 R117). -/
def gapOutcome : ReplyEnd → PollOutcome
  | .gap => .ok
  | .length => .truncated

/-- The reply tail count has reached 0 with no outcome decided: the gap outcome (06 R117). -/
def Line.decideGap (l : Line) : Line :=
  if l.poll.attempt = .reply ∧ l.poll.tail = some 0 then l.decideOutcome (gapOutcome l.poll.headPoll.replyEnd) else l

/-- The reply tail count after an entry was taken (06 R117). -/
def PollEngine.tailTaken (p : PollEngine) : PollEngine := { p with tail := p.tail.map (· - 1) }

/-- POLL_TAKE_ENTRY: in AWAIT, or in REPLY with room in the write assembly, the engine takes the staging head
(06 R114 to R118). -/
def Line.pollTakeEntry (l : Line) : Option Line :=
  match l.rx.fifo with
  | e :: rest =>
    let l1 := { l with rx := { l.rx with fifo := rest } }
    match l.poll.attempt with
    | .await => some (l1.judgeAwait e)
    | .reply =>
      if l.poll.hasRoom then
        some (Line.requestReplyWrite
          (Line.decideGap (Line.judgeReply { l1 with poll := l1.poll.tailTaken } e)))
      else none
    | _ => none
  | [] => none

def execPollTakeEntry (n : LineNo) (s : State) : Host.Outcome State Fault Refusal := onLine n Line.pollTakeEntry s

/-- REPLY_TIMEOUT: the reply timeout expires in AWAIT; NO_START (06 R115). -/
def Line.replyTimeout (l : Line) : Option Line :=
  if l.poll.attempt = .await ∧ l.poll.replyTimer.isSome then some (l.decideOutcome .noStart) else none

def execReplyTimeout (n : LineNo) (s : State) : Host.Outcome State Fault Refusal := onLine n Line.replyTimeout s

/-- REPLY_GAP_FIRE: the reply gap timer fires, and the entries then staged are the reply's tail (06 R117). -/
def Line.replyGapFire (l : Line) : Option Line :=
  if l.poll.attempt = .reply ∧ l.poll.gapTimer.isSome then
    some (Line.decideGap { l with poll := { l.poll with gapTimer := none, tail := some l.rx.fifo.length } })
  else none

def execReplyGapFire (n : LineNo) (s : State) : Host.Outcome State Fault Refusal := onLine n Line.replyGapFire s

/-- A reply write has ended OK: the written count rises; the next write is requested; the window of an OK reply closes
after its last write; a record whose end is decided completes (06 R118, R119, R123). -/
def Line.replyWritten (l : Line) (size : Nat) : Line :=
  (Line.closeWindowIfWritten (Line.requestReplyWrite
    { l with poll := { l.poll with outstanding := none, written := l.poll.written + size } })).composePoll

/-- A reply write has ended with BUS_ERROR: the record ends at once, with the status of an abort or disable that had
reached it, or BUS_ERROR (06 R122, R123). (DEDUCED: notes/assumptions/16.md). -/
def Line.replyWriteFailed (l : Line) : Line :=
  let l1 := Line.closeWindow
    { l with poll := { l.poll.stopTimers with outstanding := none, assembly := [] } }
  Line.composePoll { l1 with poll := { l1.poll.decideEnd .busError with attempt := .settle } }

/-- REPLY_WRITE_END (06 R118, R122). -/
def execReplyWriteEnd (n : LineNo) (e : WriteEnd) (s : State) : Host.Outcome State Fault Refusal :=
  s.endTransfer (fun k => k == .replyWrite n) fun t s1 =>
    match e with
    | .ok => .next (s1.updateLine n ((s1.line n).replyWritten t.extent.size))
    | .busError => .next (s1.updateLine n (s1.line n).replyWriteFailed)

/-- The next attempt begins in GUARD (06 R108, R120). -/
def Line.retry (l : Line) : Line :=
  { l with poll := { l.poll with
      attempt := .guard, attemptNumber := l.poll.attemptNumber + 1, outcome := .none, fill := 0, written := 0,
      tail := none, guardSpan := some (l.record.characterTimes l.record.guardTime.toNat) } }

/-- The status of a POLL whose last attempt ended with an outcome (06 R120). -/
def finalStatus : PollOutcome → Status
  | .ok => .ok
  | .noStart => .noReply
  | _ => .replyError

/-- ATTEMPT_END: an attempt is over once its writes have ended; its outcome is recorded and the record retries or
completes (06 R119, R120). -/
def Line.attemptEnd (l : Line) : Option Line :=
  let p := l.poll
  if p.attempt = .settle ∧ p.carrying ∧ p.endStatus = none ∧ p.outcome ≠ .none ∧ p.assembly = [] ∧ p.outstanding = none
  then
    let l1 := { l with poll := { p with lastOutcome := p.outcome, seen := p.seen ||| p.outcome.asSeen } }
    let complete (st : Status) : Line := Line.composePoll { l1 with poll := l1.poll.decideEnd st }
    some
      (if p.outcome = .ok ∨ p.headPoll.retries < p.attemptNumber then complete (finalStatus p.outcome)
       else if p.stopFlag then complete .stopped
       else l1.retry)
  else none

def execAttemptEnd (n : LineNo) (s : State) : Host.Outcome State Fault Refusal := onLine n Line.attemptEnd s

end Sys2Proof.Machine
end

