-- ==== Sys2Proof/Machine/Receive.lean ====
section
/-! DEFINITION. The receiver: FALLING_EDGE, START_CHECK_SAMPLE, DATA_BIT_SAMPLE, CHARACTER_COMPLETE, WAIT_MARK_END,
IDLE_GAP_TIMER_FIRE (chapter 3). -/

namespace Sys2Proof.Machine

/-- In HUNT a sample reads 0 after one that read 1: sample 1 of a start bit (03 R45). -/
def Line.fallingEdge (l : Line) : Option Line :=
  if l.rx.state = .hunt then
    some { l with rx := { l.rx with state := .startCheck, read := [], sample := 1, rxd := false } }
  else none

def execFallingEdge (n : LineNo) (s : State) : Host.Outcome State Fault Refusal := onLine n Line.fallingEdge s

/-- Sample 8 of the start bit: a 1 is a false start, a 0 passes to BITS (03 R46). -/
def Line.startCheck (level : Bool) (l : Line) : Option Line :=
  if l.rx.state = .startCheck then
    some
      { l with rx :=
          if level then { l.rx with state := .hunt, read := [], sample := 0, rxd := true }
          else { l.rx with state := .bits, read := [], sample := 8, rxd := false } }
  else none

def execStartCheckSample (n : LineNo) (level : Bool) (s : State) : Host.Outcome State Fault Refusal :=
  onLine n (Line.startCheck level) s

/-- Sample 8 of a data or parity bit, 16 samples after the bit before; after the last such bit the receiver passes to
STOP_CHECK (03 R47). -/
def Line.dataBit (level : Bool) (l : Line) : Option Line :=
  if l.rx.state = .bits then
    let read := l.rx.read ++ [level]
    some { l with rx := { l.rx with
      read, sample := l.rx.sample + 16, rxd := level,
      state := if l.record.bitsPerCharacter ≤ read.length then .stopCheck else .bits } }
  else none

def execDataBitSample (n : LineNo) (level : Bool) (s : State) : Host.Outcome State Fault Refusal :=
  onLine n (Line.dataBit level) s

/-- The conditions a completed character carries (03 R50). -/
def Line.raiseCarried (l : Line) (e : Staged) : Line :=
  let l1 := if e.framing || e.parity then raise .lineError l else l
  if e.brk then raise .brk l1 else l1

/-- The character joins the staging FIFO (03 R53, R59, R61). -/
def Line.stage (l : Line) (e : Staged) : Line :=
  let l1 := { l with rx := { l.rx with
    fifo := l.rx.fifo ++ [e], armed := l.rx.armed || (!l.isPoll && l.record.idleGap != 0) } }
  Line.rtsAfterJoin (if !l.isPoll && !l.hasOpenBuffer then raise .noBuffer l1 else l1)

/-- The character finds 8 entries staged: the line enters HELD, OVERRUN is raised and RTS deasserted (03 R54). -/
def Line.overrun (l : Line) : Line :=
  let l1 := raise .overrun (Line.addLost { l with rx := { l.rx with held := true } } 1)
  if l.hardwareFlow then { l1 with rts := false } else l1

/-- The character goes to one of three places: stray, lost or staged (03 R51, R54, R55, R63). -/
def Line.place (l : Line) (e : Staged) : Line :=
  if l.isPoll && !l.poll.window then l.addStray
  else if l.rx.held then l.addLost 1
  else if Config.stagingDepth ≤ l.rx.fifo.length then l.overrun
  else l.stage e

/-- The timers a completed character restarts: the idle-gap timer of a STREAM line with G above 0 (03 R60), the quiet
timer of a POLL line (06 R109), and its reply gap timer in REPLY unless it has fired (06 R116). -/
def Line.restartTimers (l : Line) : Line :=
  if l.isPoll then
    let gap :=
      if l.poll.window ∧ l.poll.attempt = .reply ∧ l.poll.tail = none then
        some (l.record.characterTimes l.poll.headPoll.replyGap)
      else l.poll.gapTimer
    { l with poll := { l.poll with quiet := l.state == .enabled, gapTimer := gap } }
  else if l.record.idleGap = 0 then l
  else { l with rx := { l.rx with idleTimer := some (l.record.characterTimes l.record.idleGap.toNat) } }

/-- The first stop bit's sample 8: the character completes (03 R48 to R51). -/
def Line.characterComplete (level : Bool) (l : Line) : Option Line :=
  if l.rx.state = .stopCheck then
    let e := classify l.record l.rx.read level
    let l1 := { l with rx := { l.rx with
      state := if e.brk then .waitMark else .hunt, read := [], sample := 0, rxd := level } }
    some ((l1.raiseCarried e).place e).restartTimers
  else none

def execCharacterComplete (n : LineNo) (level : Bool) (s : State) : Host.Outcome State Fault Refusal :=
  onLine n (Line.characterComplete level) s

/-- Sixteen consecutive samples of mark end WAIT_MARK (03 R49). -/
def Line.waitMarkEnd (l : Line) : Option Line :=
  if l.rx.state = .waitMark then some { l with rx := { l.rx with state := .hunt, rxd := true } } else none

def execWaitMarkEnd (n : LineNo) (s : State) : Host.Outcome State Fault Refusal := onLine n Line.waitMarkEnd s

/-- The idle-gap timer fires and stops. Armed, it marks the newest staging entry IDLE_GAP, or with nothing staged has
the filler close an open head buffer that holds a character (03 R61, R62, 04 R79). -/
def Line.idleGapFire (l : Line) : Option Line :=
  if l.rx.idleTimer.isSome then
    let l1 := { l with rx := { l.rx with idleTimer := none, armed := false } }
    some
      (if !l.rx.armed then l1
       else if !l.rx.fifo.isEmpty then l1.placeMark .idleGap
       else if l.filler.state = .filling ∧ 1 ≤ l.filler.fill then l1.closeBuffer .idleGap
       else l1)
  else none

def execIdleGapTimerFire (n : LineNo) (s : State) : Host.Outcome State Fault Refusal := onLine n Line.idleGapFire s

end Sys2Proof.Machine
end

