-- ==== Sys2Proof/Machine/Rings.lean ====
section
/-! DEFINITION. Backlog, completion writer, port and notification: EVENT_OFFER, BACKLOG_GRANT, WRITER_TAKE_ENTRY,
COMPLETION_WRITE_END, DRAIN_COMPLETE, PORT_GRANT, DELAY_TIMER_EXPIRE (chapters 1, 7 to 11). -/

namespace Sys2Proof.Machine

/-- The event unit of line n may offer an event entry (07 R131). -/
def State.mayOfferEvent (s : State) (n : LineNo) : Bool :=
  let l := s.line n
  l.event.pending != 0 && !l.event.queued && !s.backlog.waiting.contains (.event n) && s.ctl.state == .running
    && cqSize s.block l.record.eventCq != 0

/-- EVENT_OFFER (07 R131, 01 R19). -/
def execEventOffer (n : LineNo) (s : State) : Host.Outcome State Fault Refusal :=
  if s.mayOfferEvent n then .next (s.offer (.event n)) else .next s

/-- The producers whose lists an admission may move on. -/
def Producer.siblings : Producer → List Producer
  | .dispatcher => [.dispatcher]
  | .fence => [.fence]
  | .control n => lineProducers n
  | .data n => lineProducers n
  | .transmitter n => lineProducers n
  | .event _ => []

/-- BACKLOG_GRANT: a free slot is granted to the first waiting producer after the one last granted (01 R21). -/
def execBacklogGrant (s : State) : Host.Outcome State Fault Refusal :=
  if s.backlog.entries.length < Config.backlogSlots then
    match (searchAfter allProducers s.backlog.lastGranted).find? fun p => s.backlog.waiting.contains p with
    | some p =>
      .next (State.settle p.siblings settleBound
        (State.enterBacklog
          { s with backlog := { s.backlog with waiting := s.backlog.waiting.erase p, lastGranted := p } } p))
    | none => .next s
  else .next s

def BacklogEntry.cq : BacklogEntry → CqNo
  | .completion q _ _ => q
  | .event q _ => q

/-- The oldest backlog entry for a CQ (01 R18). -/
def State.oldestFor (s : State) (q : CqNo) : Option BacklogEntry := s.backlog.entries.find? fun e => e.cq == q

/-- The CQ is serviceable: the backlog holds an entry for it and its ring has room (08 R148). -/
def State.serviceable (s : State) (q : CqNo) : Bool :=
  (s.oldestFor q).isSome && decide (s.writer.rings[q].occupancy < cqSize s.block q)

/-- The EVENT completion of a line's pending bits and counts at the capture (07 R133). -/
def Line.eventCompletion (l : Line) (n : LineNo) : Completion :=
  { tag := 0xFFFF#16, kind := eventKind, status := .ok, line := n, sq := 0, count := BitVec.ofNat 16 l.rx.lost,
    detail := eventDetail l.event.pending l.rx.stray }

/-- The capture clears the pending bits, the stray count and the flag (07 R132). -/
def Line.captured (l : Line) : Line :=
  { l with event := { pending := 0, queued := false }, rx := { l.rx with stray := 0 } }

/-- The oldest entry for a CQ is replaced in its slot. -/
def replaceOldest (q : CqNo) (new : BacklogEntry) : List BacklogEntry → List BacklogEntry
  | [] => []
  | e :: es => if e.cq = q then new :: es else e :: replaceOldest q new es

/-- The oldest entry for a CQ leaves its slot (01 R18). -/
def removeOldest (q : CqNo) : List BacklogEntry → List BacklogEntry
  | [] => []
  | e :: es => if e.cq = q then es else e :: removeOldest q es

/-- The completion write for CQ q: 16 bytes at base + 16 × tail, with the CQ's lap bit (08 R149). -/
def completionWrite (b : Block) (q : CqNo) (r : CqRing) (c : Completion) : Transfer :=
  { kind := .completionWrite q,
    extent := { address := b.cqs[q].base + BitVec.ofNat 40 (16 * r.tail), size := 16, bytes := completionBytes c r.lap } }

/-- The writer requests the write of completion `c` to CQ `q`, which becomes the last-served CQ (08 R148, R149). -/
def State.requestCompletion (s : State) (b : Block) (q : CqNo) (c : Completion) : State :=
  { s with writer := { s.writer with lastServed := q,
                                     outstanding := some (completionWrite b q s.writer.rings[q] c) } }

/-- The writer takes the oldest entry for CQ `q`: a completion as composed, an event entry by its capture
(08 R149, 07 R132). -/
def State.takeEntry (s : State) (b : Block) (q : CqNo) : BacklogEntry → State
  | .completion _ _ c => s.requestCompletion b q c
  | .event _ n =>
    let c := (s.line n).eventCompletion n
    State.requestCompletion
      { s.setLine n (s.line n).captured with
        backlog := { s.backlog with entries := replaceOldest q (.completion q false c) s.backlog.entries } } b q c

/-- WRITER_TAKE_ENTRY: in RUNNING or DRAINING, with no write outstanding, the writer serves the first serviceable CQ after
the one last served (08 R148, R149). -/
def execWriterTakeEntry (s : State) : Host.Outcome State Fault Refusal :=
  if s.ctl.active ∧ s.writer.outstanding = none then
    match s.block, (searchAfter ringNumbers s.writer.lastServed).find? s.serviceable with
    | some b, some q =>
      match s.oldestFor q with
      | some e => .next (s.takeEntry b q e)
      | none => .next s
    | _, _ => .next s
  else .next s

/-- The URGENT flag of a backlog entry; clear for an event (07 R133). -/
def BacklogEntry.urgent : BacklogEntry → Bool
  | .completion _ u _ => u
  | .event _ _ => false

/-- A CQ ring after a completion was written to it: the tail advances, the lap bit changes when it wraps, the occupancy
rises (08 R149). -/
def CqRing.written (size : Nat) (r : CqRing) : CqRing :=
  { tail := nextSlot size r.tail, lap := if nextSlot size r.tail = 0 then !r.lap else r.lap,
    occupancy := r.occupancy + 1 }

/-- A completion write to CQ `q` has ended OK (08 R149). -/
def State.completionWritten (s : State) (q : CqNo) : State :=
  let urgent := ((s.oldestFor q).map BacklogEntry.urgent).getD false
  State.noteWritten
    { s with
      writer := { s.writer with outstanding := none,
                                rings := s.writer.rings.set q (s.writer.rings[q].written (cqSize s.block q)) }
      backlog := { s.backlog with entries := removeOldest q s.backlog.entries } } q urgent

/-- The CQ of a completion write, if the transfer is one. -/
def TransferKind.completionOf : TransferKind → Option CqNo
  | .completionWrite q => some q
  | _ => none

/-- COMPLETION_WRITE_END (08 R149, R150). -/
def execCompletionWriteEnd (e : WriteEnd) (s : State) : Host.Outcome State Fault Refusal :=
  s.endTransfer (fun k => k.completionOf.isSome) fun t s1 =>
    match t.kind.completionOf with
    | some q =>
      match e with
      | .ok => .next (s1.completionWritten q)
      | .busError => .next (s1.enterFaulted .cqWrite (.cq q))
    | none => .next s1

/-- DRAIN_COMPLETE: with the request table and the backlog both empty, DRAINING passes to STOPPED (11 R181). -/
def execDrainComplete (s : State) : Host.Outcome State Fault Refusal := .next s.drained

/-- The request the port grants when it is free: the completion writer's, or the first in round-robin order (10 R171);
none while a controller reset waits (10 R174) or RESETn is low. -/
def State.nextGrant (s : State) : Option (Transfer × PortRequester) :=
  if !s.ctl.windowOpen || s.port.inFlight.isSome then none
  else
    match s.writer.outstanding with
    | some t => some (t, s.port.last)
    | none =>
      (searchAfter portRequesters s.port.last).findSome? fun r => (s.requestOf r).map fun t => (t, r)

/-- PORT_GRANT (10 R170, R171). -/
def execPortGrant (s : State) : Host.Outcome State Fault Refusal :=
  match s.nextGrant with
  | some (t, r) => .next { s with port := { inFlight := some t, last := r } }
  | none => .next s

/-- DELAY_TIMER_EXPIRE: a running delay timer stops, and the request flag is set if the new count is at least 1
(09 R156). -/
def execDelayTimerExpire (q : CqNo) (s : State) : Host.Outcome State Fault Refusal :=
  let c := s.notice.cqs[q]
  if c.timer.isSome then
    .next (s.setCqNotice q { c with timer := none, flag := c.flag || decide (1 ≤ c.newCount) }).updateNotify
  else .next s

end Sys2Proof.Machine
end

