-- ==== Sys2Proof/Machine/Transmit.lean ====
section
/-! DEFINITION. The transmitter: TX_TAKE_RECORD, TX_DATA_READ_END, BREAK_END, TX_CHARACTER_SENT, GAP_END, CTS_ASSERT,
CTS_WAIT_TIMEOUT (chapter 5; poll requests: chapter 6, R111, R112). -/

namespace Sys2Proof.Machine

/-- TX_TAKE_RECORD: an IDLE transmitter of a STREAM line, with no record and no completion waiting, takes the LISTED
head of its TX list (05 R88, R90). -/
def Line.takeSend (l : Line) : Option Line :=
  match l.tx.list with
  | m :: _ =>
    if !l.isPoll ∧ l.tx.state = .idle ∧ l.tx.job = none ∧ m.phase = .listed then
      some (Line.beginJob { l with tx := { l.tx with list := activateHead l.tx.list } }
        { send := m.body, station := none })
    else none
  | [] => none

def execTxTakeRecord (n : LineNo) (s : State) : Host.Outcome State Fault Refusal := onLine n Line.takeSend s

/-- What the end of a read means to a record whose end is already decided, or to no record: its bytes are discarded, and
the completion is composed if it waited for the read (05 R99, 06 R123). -/
def Line.composeWaiting (l : Line) : Line := if l.isPoll then l.composePoll else l.composeSend

/-- A data or payload read has ended OK: its bytes join the staging and the next read is requested as they do; in LOAD
the transmitter goes on, and the start bit takes its byte after that (05 R89, R92, R93). -/
def Line.bytesStaged (l : Line) (bytes : List Byte) : Line :=
  let l1 := { l with tx := { l.tx with staging := l.tx.staging ++ bytes, bytesRead := l.tx.bytesRead + bytes.length } }
  let l2 := { l1 with tx := l1.tx.requestRead }
  if l.tx.state = .load then l2.startCharacter else l2

/-- A payload read of a poll request has ended with BUS_ERROR: the request ends after the character in shift, or at
once, and the record's status is BUS_ERROR (06 R111). (DEDUCED: notes/assumptions/17.md). -/
def Line.requestFailed (l : Line) : Line :=
  let l1 := { l with tx := { l.tx with busError := true, staging := [] } }
  if l.tx.state = .send then { l1 with tx := { l1.tx with endCause := some (.busError, .send) } }
  else l1.stopCharacters .busError l.tx.state

/-- A data read of a SEND has ended with BUS_ERROR: no further read is requested, bytes staged are sent; in LOAD the
record ends (05 R93). -/
def Line.dataReadFailed (l : Line) : Line :=
  let l1 := { l with tx := { l.tx with busError := true } }
  if l.tx.state = .load then l1.stopCharacters .busError .load else l1

/-- The transmitter's read has ended (05 R93, R99, 06 R111). -/
def Line.readOver (l : Line) (e : ReadEnd (List Byte)) : Line :=
  let l1 := { l with tx := { l.tx with outstanding := none } }
  match l.tx.job with
  | none => l1.composeWaiting
  | some j =>
    if l.tx.endCause.isSome then l1.composeWaiting
    else
      match e with
      | .ok bytes => l1.bytesStaged bytes
      | .busError => if j.station.isSome then l1.requestFailed else l1.dataReadFailed

/-- TX_DATA_READ_END: a data or payload read of line n ends; a read that ends OK delivers as many bytes as it was
asked for (05 R93, 10 R168). -/
def execTxDataReadEnd (n : LineNo) (e : ReadEnd (List Byte)) (cts : Bool) (s : State) :
    Host.Outcome State Fault Refusal :=
  s.endTransfer
    (fun k => k == .txDataRead n || k == .payloadRead n)
    fun t s1 =>
      match e with
      | .ok bytes =>
        if bytes.length = t.extent.size then .next (s1.updateLine n (((s1.line n).readCts cts).readOver e))
        else .next s
      | .busError => .next (s1.updateLine n (((s1.line n).readCts cts).readOver e))

/-- BREAK_END: the break and its recovery bit have ended (05 R95). -/
def Line.breakEnd (cts : Bool) (l : Line) : Option Line :=
  if l.tx.state = .brk then
    some (Line.startCharacter ({ l with tx := { l.tx with breakDone := true } }.readCts cts))
  else none

def execBreakEnd (n : LineNo) (cts : Bool) (s : State) : Host.Outcome State Fault Refusal :=
  onLine n (Line.breakEnd cts) s

/-- The record's last character has been sent: a poll request passes to RELEASE (06 R112), a SEND ends OK
(05 R99). -/
def Line.lastCharacterSent (l : Line) (j : TxJob) : Line :=
  if j.station.isSome then l.requestSent else l.stopCharacters .ok .send

/-- TX_CHARACTER_SENT: the last stop bit of the character in shift ends (05 R89, R94, R101, 06 R111, R112). -/
def Line.characterSent (cts : Bool) (l : Line) : Option Line :=
  match l.tx.state, l.tx.job with
  | .send, some j =>
    let l1 := { l with tx := { l.tx with sent := l.tx.sent + 1 } }.readCts cts
    some
      (match l.tx.endCause with
       | some (st, ts) => l1.stopCharacters st ts
       | none =>
         if j.characters ≤ l1.tx.sent then l1.lastCharacterSent j
         else if j.send.gap = 0 then l1.startCharacter
         else { l1 with tx := { l1.tx with state := .gap, txd := .mark, gapTimer := some (bitTimes j.send.gap) } })
  | _, _ => none

def execTxCharacterSent (n : LineNo) (cts : Bool) (s : State) : Host.Outcome State Fault Refusal :=
  onLine n (Line.characterSent cts) s

/-- GAP_END: g bit times of mark have passed (05 R94). -/
def Line.gapEnd (cts : Bool) (l : Line) : Option Line :=
  if l.tx.state = .gap then some (l.readCts cts).startCharacter else none

def execGapEnd (n : LineNo) (cts : Bool) (s : State) : Host.Outcome State Fault Refusal :=
  onLine n (Line.gapEnd cts) s

/-- CTS_ASSERT: CTS is asserted in CTS_WAIT and the start bit begins (05 R97, R98). -/
def Line.ctsAsserted (l : Line) : Option Line :=
  if l.tx.state = .ctsWait then some (l.readCts true).startCharacter else none

def execCtsAssert (n : LineNo) (s : State) : Host.Outcome State Fault Refusal := onLine n Line.ctsAsserted s

/-- CTS_WAIT_TIMEOUT: the CTS wait timer expires in CTS_WAIT; the record ends CTS_TIMEOUT, or BUS_ERROR if it had a bus
error (05 R98). -/
def Line.ctsTimeout (l : Line) : Option Line :=
  if l.tx.state = .ctsWait ∧ l.tx.ctsTimer.isSome then
    some (l.stopCharacters (if l.tx.busError then .busError else .ctsTimeout) .ctsWait)
  else none

def execCtsWaitTimeout (n : LineNo) (s : State) : Host.Outcome State Fault Refusal := onLine n Line.ctsTimeout s

end Sys2Proof.Machine
end

