-- ==== Sys2Proof/Machine/Dispatch.lean ====
section
/-! DEFINITION. One arm per command of the opcode table: the meaning it calls. -/

namespace Sys2Proof.Machine

/-- What a command does to everything but the queue. -/
def exec (i : Instr) (s : State) : Host.Outcome State Fault Refusal :=
  match i with
  | .start upper => Sys2Proof.Machine.execStart upper s
  | .stop upper => Sys2Proof.Machine.execStop upper s
  | .reset upper => Sys2Proof.Machine.execReset upper s
  | .controlUnknownCommand value => Sys2Proof.Machine.execControlUnknownCommand value s
  | .controllerResetTake => Sys2Proof.Machine.execControllerResetTake s
  | .deviceResetAssert => Sys2Proof.Machine.execDeviceResetAssert s
  | .deviceResetRelease => Sys2Proof.Machine.execDeviceResetRelease s
  | .statusWrite value => Sys2Proof.Machine.execStatusWrite value s
  | .qbaseLoWrite value => Sys2Proof.Machine.execQbaseLoWrite value s
  | .qbaseHiWrite value => Sys2Proof.Machine.execQbaseHiWrite value s
  | .post value => Sys2Proof.Machine.execPost value s
  | .release value => Sys2Proof.Machine.execRelease value s
  | .claim lanes => Sys2Proof.Machine.execClaim lanes s
  | .endserv value => Sys2Proof.Machine.execEndserv value s
  | .registerWriteIgnored w => Sys2Proof.Machine.execRegisterWriteIgnored w s
  | .descriptorReadEnd e => Sys2Proof.Machine.execDescriptorReadEnd e s
  | .fetchIssue => Sys2Proof.Machine.execFetchIssue s
  | .recordFetchEnd e => Sys2Proof.Machine.execRecordFetchEnd e s
  | .fenceWaitSetEmpty q => Sys2Proof.Machine.execFenceWaitSetEmpty q s
  | .configureLine n => Sys2Proof.Machine.execConfigureLine n s
  | .enableLine n => Sys2Proof.Machine.execEnableLine n s
  | .disableLine n => Sys2Proof.Machine.execDisableLine n s
  | .disabledStep n => Sys2Proof.Machine.execDisabledStep n s
  | .queryLine n => Sys2Proof.Machine.execQueryLine n s
  | .abortLine n => Sys2Proof.Machine.execAbortLine n s
  | .resumeRx n => Sys2Proof.Machine.execResumeRx n s
  | .flushRx n => Sys2Proof.Machine.execFlushRx n s
  | .reportWriteEnd e => Sys2Proof.Machine.execReportWriteEnd e s
  | .characterComplete n level => Sys2Proof.Machine.execCharacterComplete n level s
  | .idleGapTimerFire n => Sys2Proof.Machine.execIdleGapTimerFire n s
  | .fillerTakeEntry n => Sys2Proof.Machine.execFillerTakeEntry n s
  | .rxBufferWriteEnd n e => Sys2Proof.Machine.execRxBufferWriteEnd n e s
  | .txTakeRecord n => Sys2Proof.Machine.execTxTakeRecord n s
  | .txDataReadEnd n e cts => Sys2Proof.Machine.execTxDataReadEnd n e cts s
  | .breakEnd n cts => Sys2Proof.Machine.execBreakEnd n cts s
  | .txCharacterSent n cts => Sys2Proof.Machine.execTxCharacterSent n cts s
  | .gapEnd n cts => Sys2Proof.Machine.execGapEnd n cts s
  | .ctsAssert n => Sys2Proof.Machine.execCtsAssert n s
  | .ctsWaitTimeout n => Sys2Proof.Machine.execCtsWaitTimeout n s
  | .pollTakeRecord n => Sys2Proof.Machine.execPollTakeRecord n s
  | .guardEnd n => Sys2Proof.Machine.execGuardEnd n s
  | .pollTakeEntry n => Sys2Proof.Machine.execPollTakeEntry n s
  | .replyTimeout n => Sys2Proof.Machine.execReplyTimeout n s
  | .replyGapFire n => Sys2Proof.Machine.execReplyGapFire n s
  | .replyWriteEnd n e => Sys2Proof.Machine.execReplyWriteEnd n e s
  | .attemptEnd n => Sys2Proof.Machine.execAttemptEnd n s
  | .eventOffer n => Sys2Proof.Machine.execEventOffer n s
  | .backlogGrant => Sys2Proof.Machine.execBacklogGrant s
  | .writerTakeEntry => Sys2Proof.Machine.execWriterTakeEntry s
  | .completionWriteEnd e => Sys2Proof.Machine.execCompletionWriteEnd e s
  | .drainComplete => Sys2Proof.Machine.execDrainComplete s
  | .portGrant => Sys2Proof.Machine.execPortGrant s
  | .delayTimerExpire q => Sys2Proof.Machine.execDelayTimerExpire q s
  | .fallingEdge n => Sys2Proof.Machine.execFallingEdge n s
  | .startCheckSample n level => Sys2Proof.Machine.execStartCheckSample n level s
  | .dataBitSample n level => Sys2Proof.Machine.execDataBitSample n level s
  | .waitMarkEnd n => Sys2Proof.Machine.execWaitMarkEnd n s
  | .awaitEntry n => Sys2Proof.Machine.execAwaitEntry n s

end Sys2Proof.Machine
end

