-- ==== Sys2Proof/Safety.lean ====
section
/-! DEFINITION. What the claims speak of: the invariants of the part, and the ways a record's completion leaves a unit. -/

namespace Sys2Proof.Machine

/-! ### Notification (09 R160) -/

/-- What R160 says of NOTIFY, in its own terms: the fault request is set with level 5 not in service, or some
notify-enabled CQ has its request flag set with a level above every level in service. -/
def State.notifyWanted (s : State) : Prop :=
  (s.notice.faultRequest = true ∧ inService s.notice.inService 5 = false) ∨
    ∃ q : CqNo, notifyEnabled s.block q = true ∧ s.notice.cqs[q].flag = true ∧
      ∀ k, inService s.notice.inService k = true → k < cqLevel s.block q

/-- NOTIFY is asserted exactly when R160 wants it. -/
def State.NotifyFollows (s : State) : Prop := s.notice.pin = true ↔ s.notifyWanted

/-! ### Bounds -/

/-- A line's FIFO, counts and assemblies keep their bounds: 8 staging entries (03 R52), lost count 65535 (03 R57), stray
count 255 (03 R63), error and dropped counts 255 (04 R69), assemblies of 16 bytes (04 R75, 06 R118). -/
structure Line.WithinBounds (l : Line) : Prop where
  staged : l.rx.fifo.length ≤ 8
  lost : l.rx.lost ≤ 65535
  stray : l.rx.stray ≤ 255
  errors : l.filler.errors ≤ 255
  dropped : l.filler.dropped ≤ 255
  bufferAssembly : l.filler.assembly.length ≤ 16
  replyAssembly : l.poll.assembly.length ≤ 16

/-- The backlog holds at most 32 entries (01 R17), new counts stop at 64 (09 R155), QBASE is a multiple of 128 (11 R188),
and every line keeps its bounds. -/
structure State.WithinBounds (s : State) : Prop where
  qbase : s.ctl.qbase.toNat % 128 = 0
  backlog : s.backlog.entries.length ≤ 32
  newCount : ∀ q : CqNo, s.notice.cqs[q].newCount ≤ 64
  lines : ∀ n : LineNo, (s.line n).WithinBounds

/-! ### Controller (11 R182, 09 R159) -/

/-- FAULTED, the fault request and the fault code go together (09 R159, 11 R182), and descriptor reads are made in
LOADING only (11 Table 11.1). -/
structure State.ControllerInv (s : State) : Prop where
  fault : s.notice.faultRequest = true ↔ s.ctl.state = .faulted
  code : s.ctl.faultCode = .none ↔ s.ctl.state ≠ .faulted
  source : s.ctl.state ≠ .faulted → s.ctl.faultSource = .none
  ending : s.ctl.loadEnding = true → s.ctl.state = .loading
  loading : ∀ t, s.fetcher.outstanding = some t → t.kind.descriptorIndex.isSome = true → s.ctl.state = .loading
  reading : ∀ t, s.port.inFlight = some t → t.kind.descriptorIndex.isSome = true → s.fetcher.outstanding = some t
  writing : ∀ t, s.writer.outstanding = some t → t.kind.completionOf.isSome = true

/-! ### Completion rings and event entries (08 R147, 01 R19) -/

/-- The backlog's event entries of a line. -/
def State.eventEntries (s : State) (n : LineNo) : Nat :=
  s.backlog.entries.countP fun e => match e with | .event _ m => m == n | .completion .. => false

/-- The entry the writer took last is still the oldest of its CQ, and is a completion. -/
def State.writingFrom (s : State) (q : CqNo) : Prop :=
  ∃ urgent c, s.oldestFor q = some (.completion q urgent c)

/-- No CQ holds more than its size, the writer writes only below the size (08 R147), and a line has one event entry in
the backlog if its event-entry-queued flag is set and none otherwise (01 R19). -/
structure State.RingsInv (s : State) : Prop where
  controller : s.ControllerInv
  occupancy : ∀ q : CqNo, s.writer.rings[q].occupancy ≤ cqSize s.block q
  writer : ∀ t, s.writer.outstanding = some t → s.ctl.active = true ∧
    ∀ q, t.kind.completionOf = some q → s.writer.rings[q].occupancy < cqSize s.block q ∧ s.writingFrom q
  fetching : ∀ t, s.fetcher.outstanding = some t → t.kind.completionOf = none
  inFlight : ∀ t, s.port.inFlight = some t → t.kind.completionOf.isSome = true → s.writer.outstanding = some t
  queued : ∀ n : LineNo, s.eventEntries n = if (s.line n).event.queued then 1 else 0
  oneOffer : ∀ n : LineNo, s.backlog.waiting.count (.event n) ≤ if (s.line n).event.queued then 0 else 1

/-! ### Submission rings (08 R140 to R142) -/

/-- Fetch heads and posted tails are slots of their rings, and the record being fetched lies in the posted range
(08 R140, R142). -/
structure State.SubmissionInv (s : State) : Prop where
  head : ∀ q : SqNo, s.fetcher.rings[q].head < sqSize s.block q ∨ s.fetcher.rings[q].head = 0
  tail : ∀ q : SqNo, s.fetcher.rings[q].tail < sqSize s.block q ∨ s.fetcher.rings[q].tail = 0
  posted : ∀ t q i, s.fetcher.outstanding = some t → t.kind = .recordFetch q i →
    1 ≤ postedCount (sqSize s.block q) s.fetcher.rings[q] s.fetcher.rings[q].tail

/-- The SQ may supply the next fetch: used, with a posted record, and held by no FENCE (08 R142). -/
def State.maySupply (s : State) (q : SqNo) : Prop :=
  let r := s.fetcher.rings[q]
  sqSize s.block q ≠ 0 ∧ 1 ≤ (r.tail + sqSize s.block q - r.head) % sqSize s.block q ∧ s.fences[q] = none

/-- A reserved entry filled from its record's header: tag in bytes 4 to 5, kind in byte 0, URGENT in bit 0 of byte 1; its line
if the record passed the line check (01 Table 1.3, 11 Table 11.7). -/
def Entry.filled (e : Entry) (record : List Byte) (line : Option LineNo) : Entry :=
  { sq := e.sq
    cq := e.cq
    header := some
      { tag := BitVec.ofNat 16 (field record 4 2)
        kind := BitVec.ofNat 8 (field record 0 1)
        line := line
        urgent := decide (field record 1 1 % 2 = 1) } }

/-- The state after the record fetch of SQ `q` in flight has ended OK, before its record is dispatched: the port is free and
the fetch head one slot on, round the ring (08 R140, R144). -/
def State.afterFetch (s : State) (q : SqNo) : State :=
  let r := s.fetcher.rings[q]
  { s with
    port := { s.port with inFlight := none }
    fetcher := { s.fetcher with
      outstanding := none
      rings := s.fetcher.rings.set q { r with head := if r.head + 1 < sqSize s.block q then r.head + 1 else 0 } } }

/-- The state `t` of a dispatch with the credit it leaves: none if the turn is `q`'s and `q` may supply no fetch any more,
the credit it had otherwise (08 R143). -/
def State.DispatchLeaves (s t : State) (q : SqNo) (u : State) : Prop :=
  (s.fetcher.turn = q → ¬ t.maySupply q → u = { t with fetcher := { t.fetcher with credit := 0 } }) ∧
  (s.fetcher.turn ≠ q ∨ t.maySupply q → u = t)

/-! ### Request table (01 R2, R6) -/

/-- The entries that members of a list stand for. -/
def memberSlots {β : Type} (ms : List (Member β)) : List Slot := ms.map Member.slot

/-- The entries on a line's control list and data lists. -/
def Line.heldSlots (l : Line) : List Slot :=
  memberSlots l.control ++ memberSlots l.filler.list ++ memberSlots l.tx.list ++ memberSlots l.poll.list

/-- The entry a record fetch is to fill. -/
def TransferKind.reserved : TransferKind → Option Slot
  | .recordFetch _ i => some i
  | _ => none

/-- Every place of the part that stands for a request-table entry: the fetch outstanding, the dispatcher, the fence logic and
the lines' lists. -/
def State.heldSlots (s : State) : List Slot :=
  (s.fetcher.outstanding.bind fun t => t.kind.reserved).toList ++ s.dispatched.map Prod.fst ++
    s.fencesDone.map Prod.fst ++ s.fences.toList.filterMap (fun f => f.map Fence.slot) ++
    s.lines.toList.flatMap Line.heldSlots

/-- Every request-table entry in use stands in exactly one place of the part, and a free one in none, so that no record is
lost and none completes twice (01 R6, R11); an SQ whose record is being fetched is not held by a FENCE; the table is empty
in STOPPED and LOADING (11 R181). -/
structure State.TableInv (s : State) : Prop where
  controller : s.ControllerInv
  places : ∀ i : Slot, s.heldSlots.count i = if (s.entry i).isSome then 1 else 0
  fetching : ∀ t i, s.port.inFlight = some t → t.kind.reserved = some i → s.fetcher.outstanding = some t
  unheld : ∀ t q i, s.fetcher.outstanding = some t → t.kind = .recordFetch q i → s.fences[q] = none
  idle : s.ctl.state = .stopped ∨ s.ctl.state = .loading → ∀ i, s.entry i = none

/-- Every composed completion whose turn it is to be offered is waiting for a slot, and no producer waits without one
(01 R17, R20); behind the head of a control list every command is LISTED (02 R31); a DISABLED line holds no data record
(02 R36). -/
structure State.OffersInv (s : State) : Prop where
  table : s.TableInv
  control : ∀ n : LineNo, ∀ x ∈ (s.line n).control.tail, x.phase = .listed
  disabled : ∀ n : LineNo, (s.line n).state = .disabled →
    (s.line n).tx.list = [] ∧ (s.line n).filler.list = [] ∧ (s.line n).poll.list = []
  offers : ∀ p : Producer, (∀ n, p ≠ .event n) → ((s.onOffer p).isSome = true ↔ p ∈ s.backlog.waiting)
  once : s.backlog.waiting.Nodup

/-! ### Descriptors (08 R138) -/

/-- An SQ descriptor passes the examination: unused, or with its size, base, CQ, weight and reserved bytes as 08 R138 asks. -/
def SqDescriptorFits (bytes : List Byte) (q : SqNo) : Prop :=
  let d := descriptorBytes bytes q.val
  let base := field d 0 8
  let size := field d 8 2
  size = 0 ∨
    (4 ≤ size ∧ size ≤ 1024 ∧ base % 32 = 0 ∧ base < 2 ^ 40 ∧ base + 32 * size ≤ 2 ^ 40 ∧ field d 10 1 ≤ 3 ∧
      field (descriptorBytes bytes (4 + field d 10 1)) 8 2 ≠ 0 ∧ 1 ≤ field d 11 1 ∧ field d 11 1 ≤ 8 ∧
      ∀ x ∈ (d.drop 12).take 4, x = 0#8)

/-- A CQ descriptor passes the examination. -/
def CqDescriptorFits (bytes : List Byte) (q : CqNo) : Prop :=
  let d := descriptorBytes bytes (4 + q.val)
  let base := field d 0 8
  let size := field d 8 2
  size = 0 ∨
    (4 ≤ size ∧ size ≤ 1024 ∧ base % 16 = 0 ∧ base < 2 ^ 40 ∧ base + 16 * size ≤ 2 ^ 40 ∧ 1 ≤ field d 10 1 ∧
      field d 10 1 ≤ 4 ∧ field d 11 1 ≤ 1 ∧ 1 ≤ field d 12 1 ∧ field d 12 1 ≤ 64 ∧ ∀ x ∈ (d.drop 14).take 2, x = 0#8)

/-! ### Transfers (10) -/

/-- The round-robin positions of the port (10 Table 10.2): the fetcher 1, line n 2 + n, the report writer 18. -/
def PortRequester.position : PortRequester → Nat
  | .fetcher => 1
  | .line n => 2 + n.val
  | .report => 18

/-- Transfer `t` is in flight and no controller reset waits, so that its end is acted on (10 R172). -/
def State.inTransfer (s : State) (t : Transfer) : Prop := s.port.inFlight = some t ∧ s.ctl.resetWaits = false

/-! ### How a composed completion leaves its unit (01 R6, R14, R17, R20) -/

/-- A slot is free for a completion offered now: fewer than 32 are taken and no producer waits. -/
def State.hasRoom (s : State) : Prop := s.backlog.entries.length < 32 ∧ s.backlog.waiting = []

/-- The state after the completion `r` of the record in entry `i` has taken a backlog slot: the entry is freed and leaves
every wait set, and nothing else changes. -/
def State.withAdmitted (s : State) (i : Slot) (e : Entry) (r : Result) : State :=
  { s with
    table := s.table.set i none
    fences := s.fences.map fun f => f.map fun f => { f with waitSet := f.waitSet.erase i }
    backlog := { s.backlog with
      entries := s.backlog.entries ++
        [.completion e.cq ((e.header.map Header.urgent).getD false) (e.completion r)] } }

/-- The state in which producer `p` waits with the entry it offers. -/
def State.withWaiting (s : State) (p : Producer) : State :=
  { s with backlog := { s.backlog with waiting := s.backlog.waiting ++ [p] } }

/-- The state after the dispatcher has completed the record in entry `i` at once with result `r`, nothing else waiting to be
offered by the dispatcher: it enters the backlog, or the dispatcher keeps it and waits (01 R8, R10, R17, R20). With others
waiting, it joins them. -/
def State.CompletedAtOnce (s u : State) (i : Slot) (e : Entry) (r : Result) : Prop :=
  let kept : State := { s.setEntry i (some e) with dispatched := s.dispatched ++ [(i, r)] }
  (s.hasRoom → u = s.withAdmitted i e r) ∧
  (¬ s.hasRoom → s.dispatched = [] → u = kept.withWaiting .dispatcher) ∧
  (¬ s.hasRoom → s.dispatched ≠ [] → u = kept)

/-- The dispatcher waits for a slot exactly while it holds completions (01 R8, R20; part of `OffersInv`). -/
def State.dispatcherWaits (s : State) : Prop := s.dispatched ≠ [] ↔ .dispatcher ∈ s.backlog.waiting

/-- Every composed completion of line `n`'s units is already waiting for a slot. -/
def State.noNewOffers (s : State) (n : LineNo) : Prop := s.newOffers (lineProducers n) = []

/-- Command `m` is the head of line `n`'s control list, ACTIVE and as far as `p`, with `ms` behind it; what the line's other
units have composed is already waiting. -/
structure State.CommandAtHead (s : State) (n : LineNo) (m : Member LineCommand) (ms : List (Member LineCommand))
    (p : CommandProgress) : Prop where
  head : (s.line n).control = m :: ms
  active : m.phase = .active
  progress : (s.line n).progress = p
  behind : ∀ x ∈ ms, x.phase = .listed
  inUse : (s.entry m.slot).isSome = true
  notWaiting : Producer.control n ∉ s.backlog.waiting
  quiet : s.noNewOffers n

/-- Command `m` of line `n` ends with result `r`, leaving the line as `l` apart from its control list: with room in the
backlog its completion enters, it leaves the control list and the next command becomes ACTIVE; otherwise it keeps the
head and the line control unit waits (01 R20, 02 R31). -/
def State.CommandEnds (s t : State) (n : LineNo) (m : Member LineCommand) (ms : List (Member LineCommand)) (l : Line)
    (r : Result) : Prop :=
  (s.hasRoom → ∀ e, s.entry m.slot = some e →
    t = (s.setLine n { l with control := activateHead ms, progress := .untaken }).withAdmitted m.slot e r) ∧
  (¬ s.hasRoom →
    t = (s.setLine n { l with control := { m with phase := .finishing r } :: ms, progress := .untaken }).withWaiting
      (.control n))

/-- The completion `r` of the record in entry `i`, composed by producer `p`, is offered: with room it is the next entry of
the backlog and frees its entry of the request table; otherwise the backlog is unchanged and `p` waits with it
(01 R6, R17, R20). Other completions may follow it (`more`). -/
def State.Reports (s t : State) (p : Producer) (i : Slot) (r : Result) : Prop :=
  (s.hasRoom → ∀ e, s.entry i = some e → t.entry i = none ∧ ∃ more, t.backlog.entries = s.backlog.entries ++
      .completion e.cq ((e.header.map Header.urgent).getD false) (e.completion r) :: more) ∧
  (¬ s.hasRoom → t.backlog = { s.backlog with waiting := s.backlog.waiting ++ [p] } ∧ t.onOffer p = some (i, r))

/-- The part's registers, rings, notification and port are as in `s`; `pending` too. -/
structure State.SameOutside (s t : State) : Prop where
  ctl : t.ctl = s.ctl
  block : t.block = s.block
  fetcher : t.fetcher = s.fetcher
  writer : t.writer = s.writer
  notice : t.notice = s.notice
  reports : t.reports = s.reports
  port : t.port = s.port
  pending : t.pending = s.pending

/-- Every line but `n` is as in `s`. -/
def State.SameOtherLines (s t : State) (n : LineNo) : Prop := ∀ k, k ≠ n → t.line k = s.line k

/-! ### Reply window (06 Table 6.2) -/

/-- From RELEASE until the attempt's outcome is decided the reply window is open (06 R112, R119). -/
def State.WindowsOpen (s : State) : Prop :=
  ∀ n : LineNo,
    let p := (s.line n).poll
    p.attempt = .release ∨ p.attempt = .await ∨ p.attempt = .reply → p.window = true

/-! ### Records that an ABORT_LINE, DISABLE_LINE or STOP ends (04 R83, 05 R101 to R103, 06 R123 to R126) -/

/-- A list with every LISTED record completed with status `st`, count 0 and detail 0, and the others as they were. -/
def endedBehind {β : Type} (st : Status) (ms : List (Member β)) : List (Member β) :=
  ms.map fun m =>
    if m.phase = .listed then { m with phase := .finishing { status := st, count := 0, detail := 0 } } else m

/-- A list whose head has completion `r`. -/
def completedHead {β : Type} (r : Result) : List (Member β) → List (Member β)
  | [] => []
  | m :: ms => { m with phase := .finishing r } :: ms

/-- The transmitter with no record. -/
def Transmitter.withoutRecord (t : Transmitter) : Transmitter :=
  { t with job := none, busError := false, endCause := none, staging := [], readOffset := 0, sent := 0, bytesRead := 0,
           breakDone := false }

/-- The transmitter with its character work stopped in `t.state`, the end of its record decided with status `st`
(05 R99). -/
def Transmitter.stopped (t : Transmitter) (st : Status) : Transmitter :=
  { t with state := .idle, txd := .mark, staging := [], ctsTimer := none, gapTimer := none, endCause := some (st, t.state) }

/-- The transmitter of a STREAM line holds a current SEND whose end is not decided: one that an ABORT_LINE or DISABLE_LINE
ends (05 R101). (DEDUCED: notes/assumptions/15.md). -/
def Transmitter.HasCurrent (t : Transmitter) : Prop := t.job ≠ none ∧ t.endCause = none

/-- The filler's head buffer is in FILLING or CLOSING, its end not decided by an ABORT_LINE, DISABLE_LINE or STOP: one that
the next of them ends (04 R83). -/
def Filler.HasCurrent (f : Filler) : Prop := (f.state = .filling ∨ f.state = .closing) ∧ f.endStatus = none

/-- The poll engine holds a current record that is not FINISHING and whose end is not decided: one that an ABORT_LINE or
DISABLE_LINE ends (06 R123). (DEDUCED, for an end decided by a payload BUS_ERROR: notes/assumptions/17.md). -/
def PollEngine.HasCurrent (p : PollEngine) : Prop :=
  p.attempt ≠ .none ∧ p.endStatus = none ∧ ∀ m ms, p.list = m :: ms → ∀ r, m.phase ≠ .finishing r

/-- `slots` are the entries of the records of a list that an ABORT_LINE or DISABLE_LINE ends, in list order: that of the
current record, the head, if it has one to end, and those of the LISTED records, no others (02 R36, R39). -/
def EndedSlots {β : Type} (current : Prop) (ms : List (Member β)) (slots : List Slot) : Prop :=
  let listed := (ms.filter fun m => m.phase = .listed).map Member.slot
  (current → slots = (ms.take 1).map Member.slot ++ listed) ∧ (¬ current → slots = listed)

/-- `x` is a STREAM line's transmitter `t` after an ABORT_LINE or DISABLE_LINE of status `st` has reached it (05 R101,
R102): the LISTED SENDs are completed; a current SEND whose end is not decided ends, after its character in shift if
there is one, at once otherwise; its completion is composed unless a read is outstanding. -/
def Transmitter.EndedAs (t x : Transmitter) (st : Status) : Prop :=
  let behind := endedBehind st t.list
  let current := t.HasCurrent
  (¬ current → x = { t with list := behind }) ∧
  (current → t.state = .send → x = { t with list := behind, endCause := some (st, .send) }) ∧
  (current → t.state ≠ .send → t.outstanding ≠ none → x = { t.stopped st with list := behind }) ∧
  (current → t.state ≠ .send → t.outstanding = none →
    x = { (t.stopped st).withoutRecord with
      list := completedHead
        { status := st, count := BitVec.ofNat 16 t.sent, detail := sendDetail t.bytesRead t.breakDone t.state } behind })

/-- `x` is the buffer filler `f` after an ABORT_LINE, DISABLE_LINE or STOP of status `st` has reached it (04 R83 to R85): the
LISTED buffers are completed; a head buffer in FILLING or CLOSING whose end is not so decided writes what is assembled
and completes when its writes have ended, at once if there are none, with its written count and the close reason as it
stood. -/
def Filler.EndedAs (f x : Filler) (st : Status) : Prop :=
  let behind := endedBehind st f.list
  let reached := f.HasCurrent
  (¬ reached → x = { f with list := behind }) ∧
  (reached → f.outstanding ≠ none → x = { f with list := behind, state := .closing, endStatus := some st }) ∧
  (reached → f.outstanding = none → f.assembly ≠ [] → ∀ m ms, f.list = m :: ms →
    x = { f with
      list := behind
      state := .closing
      endStatus := some st
      assembly := []
      outstanding := some
        { address := m.body.address + BitVec.ofNat 40 (f.fill - f.assembly.length), size := f.assembly.length,
          bytes := f.assembly } }) ∧
  (reached → f.outstanding = none → f.assembly = [] →
    x = { f with
      state := .offering
      endStatus := some st
      list := completedHead
        { status := st, count := BitVec.ofNat 16 f.written,
          detail := bufferDetail f.reason f.firstMarked f.errors f.dropped } behind })

/-- `k` is the POLL line `w`, in SETTLE, with the end of its current record decided with status `st`, ABORTED or
LINE_DISABLED (06 R121, R123): its completion is composed when no reply write and no read is outstanding, with the bytes
written, the outcome of the attempt if it was decided, the attempt number and the outcomes seen, or with the fields of a
SEND. -/
def Line.RecordCutAs (w k : Line) (st : Status) : Prop :=
  let p := w.poll
  let still := p.assembly = [] ∧ p.outstanding = none ∧ w.tx.outstanding = none
  (¬ still → k = { w with poll := { p with endStatus := some st } }) ∧
  (still → ∀ m ms, p.list = m :: ms →
    let completed (count : Nat) (detail : Word) : Line := { w with
      tx := w.tx.withoutRecord
      poll := { p with
        list := { m with phase := .finishing { status := st, count := BitVec.ofNat 16 count, detail } } :: ms
        endStatus := none
        stopFlag := false } }
    (∀ b, m.body = .poll b →
      k = completed p.written (pollDetail p.outcome p.attemptNumber (p.seen ||| p.outcome.asSeen))) ∧
    (∀ b, m.body = .send b →
      k = completed w.tx.sent (sendDetail w.tx.bytesRead w.tx.breakDone ((w.tx.endCause.map Prod.snd).getD .idle))))

/-- `k` is the POLL line `l` after an ABORT_LINE or DISABLE_LINE of status `st` has reached its engine (06 R123 to R125): the
LISTED records are completed; a current record whose end is not decided ends by its attempt state. -/
def Line.PollsEndedAs (l k : Line) (st : Status) : Prop :=
  let p := { l.poll with list := endedBehind st l.poll.list }
  let enabled := decide (l.state = .enabled)
  let current := l.poll.HasCurrent
  (¬ current → k = { l with poll := p }) ∧
  (current →
    (p.attempt = .guard →
      Line.RecordCutAs { l with poll := { p with attempt := .settle, guardSpan := none } } k st) ∧
    (p.attempt = .request → l.tx.state = .send →
      k = { l with poll := { p with endStatus := some st }, tx := { l.tx with endCause := some (st, .send) } }) ∧
    (p.attempt = .request → l.tx.state ≠ .send →
      Line.RecordCutAs
        { l with
          de := false
          tx := l.tx.stopped st
          rx := if enabled then { l.rx with state := .hunt, read := [], sample := 0 } else l.rx
          poll := { p with attempt := .settle, quiet := enabled } } k st) ∧
    (p.attempt = .release ∨ p.attempt = .await ∨ p.attempt = .reply →
      let writes := p.outstanding = none ∧ p.assembly ≠ []
      let closed : PollEngine :=
        { p with attempt := .settle, window := false, guardSpan := none, replyTimer := none, gapTimer := none, tail := none }
      let ends (q : PollEngine) := Line.RecordCutAs { l with rx := { l.rx with fifo := [] }, poll := q } k st
      (¬ writes → ends closed) ∧
      (writes → ends { closed with
        assembly := []
        outstanding := some
          { address := p.headPoll.replyAddress + BitVec.ofNat 40 (p.fill - p.assembly.length), size := p.assembly.length,
            bytes := p.assembly } })) ∧
    (p.attempt = .settle → Line.RecordCutAs { l with poll := p } k st))

/-! ### A buffer that leaves the RX buffer list (04 R66, R67, R78, R79) -/

/-- `w` is line `l` after its head buffer has left the RX buffer list: with none behind it the filler is IDLE, its list empty,
and NO_BUFFER is raised exactly when entries are staged; a LISTED one behind it becomes the head, ACTIVE, and the filler is
FILLING; one that is FINISHING becomes the head as it is, and the filler stays OFFERING. The progress of the buffer that
left is cleared. -/
def Line.BufferLeft (l w : Line) : Prop :=
  let filler (state : FillerState) (list : List (Member BufferBody)) : Filler := { l.filler with
    list, state, fill := 0, written := 0, errors := 0, dropped := 0, firstMarked := false, reason := .none
    endStatus := none, assembly := [] }
  (l.filler.list.tail = [] → l.rx.fifo = [] → w = { l with filler := filler .idle [] }) ∧
  (l.filler.list.tail = [] → l.rx.fifo ≠ [] → w = { l with
    filler := filler .idle []
    event := { l.event with pending := l.event.pending ||| (l.record.enable &&& 0b00100#5) } }) ∧
  ∀ b bs, l.filler.list.tail = b :: bs →
    (b.phase = .listed → w = { l with filler := filler .filling ({ b with phase := .active } :: bs) }) ∧
    (b.phase ≠ .listed → w = { l with filler := filler .offering (b :: bs) })

/-! ### Submission bodies (11 Table 11.8) -/

/-- The `size` bytes at `offset` are zero. -/
def ZeroAt (r : List Byte) (offset size : Nat) : Prop := ∀ b ∈ (r.drop offset).take size, b = 0#8

/-- The line record `c` is what a CONFIGURE_LINE's bytes spell (11 Table 11.8), and its fields agree among themselves and with
the loaded block (02 R26). -/
structure ConfigureFits (block : Option Block) (r : List Byte) (c : LineRecord) : Prop where
  configured : c.configured = true
  mode : c.mode.code = field r 8 1
  dataBits : c.dataBits.count = field r 9 1
  parity : c.parity = .off ∧ field r 10 1 = 0 ∨ c.parity = .even ∧ field r 10 1 = 1 ∨ c.parity = .odd ∧ field r 10 1 = 2
  stopBits : c.stopBits.count = field r 11 1
  divisor : c.divisor.toNat = field r 12 2
  flow : c.flow = .off ∧ field r 14 1 = 0 ∨ c.flow = .hardware ∧ field r 14 1 = 1
  policy : c.policy = .keep ∧ field r 15 1 = 0 ∨ c.policy = .drop ∧ field r 15 1 = 1 ∨ c.policy = .close ∧ field r 15 1 = 2
  idleGap : c.idleGap.toNat = field r 16 1
  delimiter : c.delimiter = none ∧ field r 17 1 = 0 ∧ field r 18 1 = 0 ∨
    c.delimiter = some (BitVec.ofNat 8 (field r 18 1)) ∧ field r 17 1 = 1
  guardTime : c.guardTime.toNat = field r 19 1
  eventCq : c.eventCq.val = field r 20 1
  enable : c.enable.toNat = field r 21 1
  reserved : ZeroAt r 22 10
  poll : c.mode = .poll →
    c.dataBits = .nine ∧ c.flow = .off ∧ c.idleGap = 0 ∧ c.policy = .keep ∧ c.delimiter = none
  stream : c.mode = .stream → c.guardTime = 0
  nine : c.dataBits = .nine → c.parity = .off ∧ c.delimiter = none
  seven : c.dataBits = .seven → ∀ d, c.delimiter = some d → d.toNat ≤ 0x7F
  used : cqSize block c.eventCq ≠ 0

/-- A SEND's bytes spell `b` (05 R87). -/
structure SendFits (r : List Byte) (b : SendBody) : Prop where
  address : b.address.toNat = field r 8 8
  length : b.length = field r 16 2 ∧ 1 ≤ b.length ∧ b.length ≤ 4096
  area : b.address.toNat + b.length ≤ 2 ^ 40
  breakBefore : b.breakBefore = field r 18 1 ∧ b.breakBefore ≤ 15
  gap : b.gap = field r 19 1
  options : field r 20 1 = b.markFirst.toNat
  ctsLimit : b.ctsLimit = field r 21 1
  reserved : ZeroAt r 22 10

/-- A POST_BUFFER's bytes spell `b` (04 R65). -/
structure BufferFits (r : List Byte) (b : BufferBody) : Prop where
  address : b.address.toNat = field r 8 8
  capacity : b.capacity = field r 16 2 ∧ 1 ≤ b.capacity ∧ b.capacity ≤ 4096
  area : b.address.toNat + b.capacity ≤ 2 ^ 40
  reserved : ZeroAt r 18 14

/-- A POLL's bytes spell `b` (06 R107): byte 9 holds the retries, and above them the reply end, 1 LENGTH or 2 GAP. -/
structure PollFits (r : List Byte) (b : PollBody) : Prop where
  station : b.station.toNat = field r 8 1
  control : field r 9 1 = b.retries + (if b.replyEnd = .length then 16 else 32) ∧ b.retries ≤ 7
  replyGap : b.replyGap = field r 10 1 ∧ 1 ≤ b.replyGap
  timeout : b.timeout = field r 11 1 ∧ 1 ≤ b.timeout
  payloadLength : b.payloadLength = field r 12 2 ∧ b.payloadLength ≤ 256
  replyCapacity : b.replyCapacity = field r 14 2 ∧ b.replyCapacity ≤ 256
  payloadAddress : b.payloadAddress.toNat = field r 16 8 ∧ b.payloadAddress.toNat + b.payloadLength ≤ 2 ^ 40
  replyAddress : b.replyAddress.toNat = field r 24 8 ∧ b.replyAddress.toNat + b.replyCapacity ≤ 2 ^ 40

/-- The bytes `r` of a record of kind `k` spell the body `b`, every field within its range and every reserved byte of the body
zero (01 Table 1.5 step 3; 02 R26, R37, R39, 04 R65, 05 R87, 06 R107, 11 Table 11.8, R191). -/
def BodyFits (block : Option Block) (r : List Byte) (k : Kind) (b : Body) : Prop :=
  match k with
  | .configureLine => ∃ c, ConfigureFits block r c ∧ b = .command (.configure c)
  | .enableLine => ZeroAt r 8 24 ∧ b = .command .enable
  | .disableLine => ZeroAt r 8 24 ∧ b = .command .disable
  | .queryLine => ∃ a : Addr, (a.toNat = field r 8 8 ∧ field r 8 8 % 32 = 0 ∧ ZeroAt r 16 16) ∧ b = .command (.query a)
  | .abortLine => ∃ c : AbortClass,
    ((c = .tx ∧ field r 8 1 = 1 ∨ c = .rx ∧ field r 8 1 = 2 ∨ c = .all ∧ field r 8 1 = 3) ∧ ZeroAt r 9 23) ∧
      b = .command (.abort c)
  | .resumeRx => ZeroAt r 8 24 ∧ b = .command .resumeRx
  | .flushRx => ZeroAt r 8 24 ∧ b = .command .flushRx
  | .fence => ZeroAt r 8 24 ∧ b = .fence
  | .send => ∃ x, SendFits r x ∧ b = .send x
  | .postBuffer => ∃ x, BufferFits r x ∧ b = .buffer x
  | .poll => ∃ x, PollFits r x ∧ b = .poll x

/-! ### Entry to FAULTED (11 R182) -/

/-- A line right after entry to FAULTED: DISABLED and at rest, with its line record, lost count, stray count and pending
event bits (02 R43, 03 R64, 07 R136). -/
def Line.FaultedFrom (before after : Line) : Prop :=
  after = { Line.rest with
    record := before.record
    rx := { Receiver.rest with lost := before.rx.lost, stray := before.rx.stray }
    event := { pending := before.event.pending, queued := false } }

/-- The part enters FAULTED with a fault code and source (11 R182): table, backlog, fence logic, snapshots and requests are
discarded, every line is shut down, delay timers stop, the fault request is set, NOTIFY follows; heads, tails, lap bits,
occupancies, counts, flags, the in-service set and the loaded block stay. -/
structure State.FaultedFrom (s t : State) (code : FaultCode) (source : FaultSource) : Prop where
  ctl : t.ctl = { s.ctl with state := .faulted, loadEnding := false, faultCode := code, faultSource := source }
  block : t.block = s.block
  table : ∀ i, t.entry i = none
  unlisted : t.dispatched = [] ∧ t.fencesDone = [] ∧ ∀ q : SqNo, t.fences[q] = none
  backlog : t.backlog.entries = [] ∧ t.backlog.waiting = []
  fetcher : t.fetcher = { s.fetcher with outstanding := none, kept := [] }
  writer : t.writer = { s.writer with outstanding := none }
  reports : t.reports = []
  port : t.port = { s.port with inFlight := none }
  lines : ∀ n, (s.line n).FaultedFrom (t.line n)
  timers : ∀ q : CqNo, t.notice.cqs[q] = { s.notice.cqs[q] with timer := none }
  inService : t.notice.inService = s.notice.inService
  request : t.notice.faultRequest = true
  notify : t.NotifyFollows
  queue : t.pending = s.pending

end Sys2Proof.Machine
end

