-- ==== Sys2Proof/Certificates/Slice0/Obligations.lean ====
section
/-! DEFINITION. The statements for the provers, family by family. -/

open Sys2Proof Sys2Proof.Machine

/-! ### The whole part -/

/-- A step carries out the command at the front of the queue on the state with the queue's rest; with an empty queue the
block idles (the model's choice, notes/assumptions/2.md). -/
def Obligations.StepRunsFrontCommand : Prop :=
  (∀ (c : Instr) (rest : List Instr) (s : State), step { s with pending := c :: rest } = exec c { s with pending := rest })
  ∧ ∀ s : State, s.pending = [] → step s = .next s

/-- Every command answers a next state in every state, and leaves the queue alone (the part never stops).
(That no command stops the part is the model's choice: notes/assumptions/3.md, 24.md.) -/
def Obligations.ExecAnswersAndKeepsQueue : Prop :=
  ∀ (c : Instr) (s : State), ∃ t, exec c s = .next t ∧ t.pending = s.pending

/-- The part after a device reset (11 R183, R184 and the chapters' reset values).
(State.reset stands after RESETn has risen: notes/assumptions/22.md.) -/
def Obligations.ResetValues : Prop :=
  let s := State.reset
  s.ctl.state = .stopped ∧ s.ctl.faultCode = .none ∧ s.ctl.faultSource = .none ∧ s.ctl.misplacedWrite = false ∧
  s.ctl.rangeError = false ∧ s.ctl.cause = .power ∧ s.ctl.qbase = 0 ∧ s.block = none ∧
  (∀ i, s.entry i = none) ∧ s.backlog.entries = [] ∧ s.backlog.waiting = [] ∧ s.backlog.lastGranted.position = 66 ∧
  (∀ q : SqNo, s.fetcher.rings[q] = { head := 0, tail := 0 }) ∧ s.fetcher.turn = 3 ∧ s.fetcher.credit = 0 ∧
  (∀ q : CqNo, s.writer.rings[q] = { tail := 0, lap := true, occupancy := 0 }) ∧ s.writer.lastServed = 3 ∧
  (∀ q : CqNo, s.notice.cqs[q] = { newCount := 0, timer := none, flag := false }) ∧ s.notice.inService = 0 ∧
  s.notice.faultRequest = false ∧ s.notice.pin = false ∧ s.reports = [] ∧ s.port.inFlight = none ∧
  s.port.last = .report ∧
  ∀ n : LineNo,
    let l := s.line n
    l.record = .unconfigured ∧ l.state = .disabled ∧ l.control = [] ∧ l.rx.state = .off ∧ l.rx.fifo = [] ∧
    l.rx.held = false ∧ l.rx.lost = 0 ∧ l.rx.stray = 0 ∧ l.filler.state = .idle ∧ l.filler.list = [] ∧
    l.tx.state = .idle ∧ l.tx.list = [] ∧ l.tx.staging = [] ∧ l.tx.txd = .mark ∧ l.poll.attempt = .none ∧
    l.poll.list = [] ∧ l.poll.window = false ∧ l.event.pending = 0 ∧ l.event.queued = false ∧ l.rts = false ∧
    l.de = false ∧ l.rate = none

/-- The invariants of Safety.lean hold after a reset. -/
def Obligations.InvariantsAtReset : Prop :=
  State.reset.NotifyFollows ∧ State.reset.WithinBounds ∧ State.reset.ControllerInv ∧ State.reset.RingsInv ∧
  State.reset.SubmissionInv ∧ State.reset.TableInv ∧ State.reset.OffersInv ∧ State.reset.WindowsOpen

/-- NOTIFY follows its condition through every command (09 R160). -/
def Obligations.NotifyFollowsKept : Prop :=
  ∀ s t : State, s.NotifyFollows → step s = .next t → t.NotifyFollows

/-- The backlog never holds more than 32 entries, no staging FIFO more than 8, no count or assembly more than its bound
(01 R17, 03 R52, R57, R63, 04 R69, R75, 09 R155); and a line's reply window stays open from RELEASE until the attempt's
outcome is decided (06 Table 6.2, R112, R119). -/
def Obligations.BoundsKept : Prop :=
  (∀ s t : State, s.WithinBounds → step s = .next t → t.WithinBounds) ∧
  ∀ s t : State, s.WindowsOpen → step s = .next t → t.WindowsOpen

/-- FAULTED, the fault request and the fault code and source go together through every command (09 R159, 11 R182). -/
def Obligations.FaultStateKept : Prop := ∀ s t : State, s.ControllerInv → step s = .next t → t.ControllerInv

/-- No completion ring ever holds more than its size, and no line ever has two event entries in the backlog
(08 R147, 01 R19). -/
def Obligations.CompletionRingsKept : Prop := ∀ s t : State, s.RingsInv → step s = .next t → t.RingsInv

/-- Heads and tails stay slots of their rings, and the record being fetched stays in the posted range (08 R140, R142). -/
def Obligations.SubmissionRingsKept : Prop :=
  ∀ s t : State, s.SubmissionInv → step s = .next t → t.SubmissionInv

/-- Every request-table entry in use stands in exactly one place of the part, so that every fetched record has exactly one
completion enter the backlog unless a fault or a reset discards it (01 R6, R11).
(Phases are kept with the list members, the model's choice: notes/assumptions/9.md.) -/
def Obligations.RequestTableKept : Prop := ∀ s t : State, s.TableInv → step s = .next t → t.TableInv

/-- A composed completion is always admitted or waiting, and nobody waits without one (01 R17, R20); only the head of a
control list is past LISTED (02 R31); a DISABLED line holds no data record (02 R36).
(A new offer waits while others wait: notes/assumptions/7.md.) -/
def Obligations.OffersKept : Prop := ∀ s t : State, s.OffersInv → step s = .next t → t.OffersInv

/-! ### The register window (chapter 11) -/

/-- START (11 R177) and STOP outside RUNNING (R179): START in STOPPED moves the controller to LOADING and requests the first
descriptor read at QBASE; STOP in LOADING ends the loading; in the states that do not take them each is ignored and sets
MISPLACED_WRITE. -/
def Obligations.StartAndStopWrites : Prop :=
  ∀ (u : BitVec 24) (s : State), s.ctl.windowOpen = true →
    let misplaced (i : Instr) := exec i s = .next { s with ctl := { s.ctl with misplacedWrite := true } }
    (s.ctl.state = .stopped →
      exec (.start u) s = .next { s with
        ctl := { s.ctl with state := .loading, loadEnding := false }
        fetcher := { s.fetcher with
          outstanding := some { kind := .descriptorRead 0,
                                extent := { address := s.ctl.qbase, size := 32, bytes := [] } }
          kept := [] } }) ∧
    (s.ctl.state ≠ .stopped → misplaced (.start u)) ∧
    (s.ctl.state = .loading → exec (.stop u) s = .next { s with ctl := { s.ctl with loadEnding := true } }) ∧
    (s.ctl.state = .stopped ∨ s.ctl.state = .draining ∨ s.ctl.state = .faulted → misplaced (.stop u))

/-- STOP in RUNNING (11 R180, R181): the controller enters DRAINING, or STOPPED at the same moment if the request table
and the backlog are empty; on an ENABLED line every LISTED data record completes STOPPED with count 0 and detail 0, and the
head buffer of a STREAM line ends STOPPED (04 R84, R83; its SEND goes on, 05 R103), all offered at that moment; a POLL
line's stop flag is set if its engine holds a current record; lines keep their record, state and receive activity; the rest
of the part stands still. DRAIN_COMPLETE: DRAINING passes to STOPPED once both are empty, and not before.
(The stop flag of a current record that is not yet FINISHING: notes/assumptions/21.md; that the armed flag stays: 30.md.) -/
def Obligations.StopAndDrain : Prop :=
  (∀ (u : BitVec 24) (s : State), s.ctl.windowOpen = true → s.ctl.state = .running →
    ∃ t, exec (.stop u) s = .next t ∧
      t.ctl = { s.ctl with state := if t.tableEmpty ∧ t.backlog.entries = [] then .stopped else .draining } ∧
      t.block = s.block ∧ t.fetcher = s.fetcher ∧ t.writer = s.writer ∧ t.notice = s.notice ∧ t.reports = s.reports ∧
      t.port = s.port ∧ t.pending = s.pending ∧
      ∀ n : LineNo,
        (t.line n).record = (s.line n).record ∧ (t.line n).state = (s.line n).state ∧
        (t.line n).rx.state = (s.line n).rx.state ∧ (t.line n).rx.held = (s.line n).rx.held ∧
        (t.line n).rx.lost = (s.line n).rx.lost ∧ (t.line n).rx.stray = (s.line n).rx.stray ∧
        ((s.line n).state = .enabled →
          ((s.line n).isPoll = true →
            (∀ m ∈ (t.line n).poll.list, m.phase ≠ .listed) ∧
            (t.line n).poll.stopFlag = ((s.line n).poll.stopFlag || (s.line n).poll.carrying)) ∧
          ((s.line n).isPoll = false →
            (∀ m ∈ (t.line n).tx.list, m.phase ≠ .listed) ∧ ∀ m ∈ (t.line n).filler.list, m.phase ≠ .listed))) ∧
  (∀ (u : BitVec 24) (s : State), s.ctl.windowOpen = true → s.ctl.state = .running →
    ∃ lines : Vector Line 16,
      exec (.stop u) s = .next (State.drained (State.settle allLineProducers settleBound
        { s with ctl := { s.ctl with state := .draining }, lines })) ∧
      ∀ n : LineNo,
        let l := s.line n
        let k := lines[n]
        (l.state ≠ .enabled → k = l) ∧
        (l.state = .enabled → l.record.mode = .poll → k = { l with poll := { l.poll with
          list := endedBehind .stopped l.poll.list, stopFlag := l.poll.stopFlag || l.poll.carrying } }) ∧
        (l.state = .enabled → l.record.mode = .stream →
          k = { l with tx := { l.tx with list := endedBehind .stopped l.tx.list }, filler := k.filler } ∧
          l.filler.EndedAs k.filler .stopped)) ∧
  ∀ s : State,
    let drained := s.ctl.state = .draining ∧ (∀ i, s.entry i = none) ∧ s.backlog.entries = []
    (drained → exec .drainComplete s = .next { s with ctl := { s.ctl with state := .stopped } }) ∧
    (¬ drained → exec .drainComplete s = .next s)

/-- A controller reset (11 R183, 10 R174): the write of RESET begins it, in every controller state; it is taken, with every block
at its reset value and QBASE kept, once no transfer is in flight. A device reset (11 R184, 10 R175): RESETn falling cuts the
transfer in flight and abandons a waiting controller reset; when it rises every block holds its reset value, QBASE 0 and
last reset cause POWER. (The model's own fields busWord and offersMade and the queue are kept: notes/assumptions/6.md,
10.md; that the values are taken when RESETn falls is 22.md.) -/
def Obligations.Resets : Prop :=
  (∀ (u : BitVec 24) (s : State), s.ctl.windowOpen = true →
    exec (.reset u) s = .next { s with ctl := { s.ctl with resetWaits := true } }) ∧
  (∀ s : State, s.ctl.resetWaits = true → s.ctl.resetHigh = true →
    (s.port.inFlight = none →
      exec .controllerResetTake s = .next { State.reset with
        ctl := { State.reset.ctl with cause := .control, qbase := s.ctl.qbase, busWord := s.ctl.busWord }
        offersMade := s.offersMade, pending := s.pending }) ∧
    (s.port.inFlight ≠ none → exec .controllerResetTake s = .next s)) ∧
  (∀ s : State, s.ctl.resetHigh = true →
    exec .deviceResetAssert s = .next { State.reset with
      ctl := { State.reset.ctl with resetHigh := false, busWord := s.ctl.busWord }
      offersMade := s.offersMade, pending := s.pending }) ∧
  ∀ s : State, s.ctl.resetHigh = false →
    exec .deviceResetRelease s = .next { State.reset with
      ctl := { State.reset.ctl with busWord := s.ctl.busWord }, offersMade := s.offersMade, pending := s.pending }

/-- A CONTROL write is decoded by its command code, bits 0 to 7: 1 START, 2 STOP, 3 RESET; any other code is ignored and
sets RANGE_ERROR (11 R186). -/
def Obligations.ControlWriteDecoding : Prop :=
  ∀ value : Word,
    let code := (value.extractLsb' 0 8).toNat
    let upper := value.extractLsb' 8 24
    (code = 1 → registerWrite 1 value = .start upper) ∧ (code = 2 → registerWrite 1 value = .stop upper) ∧
    (code = 3 → registerWrite 1 value = .reset upper) ∧
    (code ≠ 1 → code ≠ 2 → code ≠ 3 →
      registerWrite 1 value = .controlUnknownCommand value ∧
      ∀ s : State, s.ctl.windowOpen = true →
        exec (.controlUnknownCommand value) s = .next { s with ctl := { s.ctl with rangeError := true } })

/-- STATUS and INSERVICE (11 R187, Table 11.6, 09 R165): each field reads what it stands for, every bit that no field names
reads 0, and all read 0 while RESETn is low; a STATUS write clears each flag written with a 1 and changes nothing else. A
read of CONTROL, POST, RELEASE, ENDSERV or an offset from 28H on returns 0, and a read of part of a word returns those bytes
of it (11 R185). (The lanes not read are the model's choice 0, notes/assumptions/11.md; so is the fault source number 0
while the fault source is NONE, 33.md.) -/
def Obligations.StatusAndInservice : Prop :=
  (∀ (value : Word) (s : State), s.ctl.windowOpen = true →
    exec (.statusWrite value) s = .next { s with ctl := { s.ctl with
      misplacedWrite := if value.getLsbD 16 then false else s.ctl.misplacedWrite
      rangeError := if value.getLsbD 17 then false else s.ctl.rangeError } }) ∧
  ∀ (c : Controller) (set : BitVec 5),
    (c.resetHigh = true →
      let w := readRegister c set 2
      let v := readRegister c set 9
      (w.extractLsb' 0 3).toNat = c.state.code ∧ (w.extractLsb' 4 3).toNat = c.faultCode.code ∧
      (w.extractLsb' 8 2).toNat = c.faultSource.number ∧ (w.extractLsb' 10 2).toNat = c.faultSource.kindCode ∧
      [ControllerState.stopped, .loading, .running, .draining, .faulted][(w.extractLsb' 0 3).toNat]? = some c.state ∧
      [FaultCode.none, .descriptorRead, .descriptorInvalid, .sqFetch, .cqWrite][(w.extractLsb' 4 3).toNat]? =
        some c.faultCode ∧
      (∀ q, c.faultSource = .sq q → w.extractLsb' 8 2 = BitVec.ofNat 2 q.val ∧ w.extractLsb' 10 2 = 1#2) ∧
      (∀ q, c.faultSource = .cq q → w.extractLsb' 8 2 = BitVec.ofNat 2 q.val ∧ w.extractLsb' 10 2 = 2#2) ∧
      (c.faultSource = .none → w.extractLsb' 8 2 = 0#2 ∧ w.extractLsb' 10 2 = 0#2) ∧
      w.getLsbD 16 = c.misplacedWrite ∧ w.getLsbD 17 = c.rangeError ∧ (w.extractLsb' 24 1).toNat = c.cause.code ∧
      (∀ k, 1 ≤ k → k ≤ 5 → v.getLsbD k = inService set k) ∧ (v.extractLsb' 8 3).toNat = topLevel set ∧
      (∀ i, i = 3 ∨ i = 7 ∨ 12 ≤ i ∧ i ≤ 15 ∨ 18 ≤ i ∧ i ≤ 23 ∨ 25 ≤ i → w.getLsbD i = false) ∧
      (∀ i, i = 0 ∨ i = 6 ∨ i = 7 ∨ 11 ≤ i → v.getLsbD i = false) ∧
      ∀ k : Fin 16, k = 1 ∨ k = 5 ∨ k = 6 ∨ k = 8 ∨ 10 ≤ k → readRegister c set k = 0) ∧
    (c.resetHigh = false → ∀ k, readRegister c set k = 0) ∧
    ∀ (k : Fin 16) (lanes : Lanes) (i : Nat), i < 32 →
      (laneMask lanes).getLsbD i = lanes.getLsbD (i / 8) ∧
      (readLanes c set k lanes).getLsbD i = (lanes.getLsbD (i / 8) && (readRegister c set k).getLsbD i)

/-- IDENT (11 R189). -/
def Obligations.IdentRead : Prop :=
  ∀ (c : Controller) (set : BitVec 5),
    let w := readRegister c set 0
    (c.resetHigh = true → w = 0x3E416001#32 ∧ w.extractLsb' 24 8 = 0x3E#8 ∧ w.extractLsb' 8 16 = 0x4160#16 ∧
      w.extractLsb' 0 8 = 0x01#8) ∧
    (c.resetHigh = false → w = 0)

/-- QBASE (11 R188): in STOPPED a QBASE_LO write replaces address bits 7 to 31, with bits 0 to 6 zero, and a QBASE_HI write
bits 32 to 39; in any other state each sets MISPLACED_WRITE. QBASE_LO reads address bits 0 to 31, of which 0 to 6 are 0, and
QBASE_HI address bits 32 to 39 in its bits 0 to 7. -/
def Obligations.QbaseWrites : Prop :=
  (∀ (c : Controller) (set : BitVec 5) (i : Nat), c.resetHigh = true → c.qbase.toNat % 128 = 0 → i < 32 →
    (readRegister c set 3).getLsbD i = (if i < 7 then false else c.qbase.getLsbD i) ∧
    (readRegister c set 4).getLsbD i = (if i < 8 then c.qbase.getLsbD (32 + i) else false)) ∧
  ∀ (v : Word) (s : State), s.ctl.windowOpen = true →
    (s.ctl.state = .stopped →
      ∃ lo hi : Addr,
        exec (.qbaseLoWrite v) s = .next { s with ctl := { s.ctl with qbase := lo } } ∧
        exec (.qbaseHiWrite v) s = .next { s with ctl := { s.ctl with qbase := hi } } ∧
        (∀ i, i < 40 → lo.getLsbD i =
          if i < 7 then false else if i < 32 then v.getLsbD i else s.ctl.qbase.getLsbD i) ∧
        ∀ i, i < 40 → hi.getLsbD i = if i < 32 then s.ctl.qbase.getLsbD i else v.getLsbD (i - 32)) ∧
    (s.ctl.state ≠ .stopped →
      exec (.qbaseLoWrite v) s = .next { s with ctl := { s.ctl with misplacedWrite := true } } ∧
      exec (.qbaseHiWrite v) s = .next { s with ctl := { s.ctl with misplacedWrite := true } })

/-- POST (08 R141), its four cases in their order. -/
def Obligations.PostWrite : Prop :=
  ∀ (v : Word) (s : State), s.ctl.windowOpen = true →
    let q : SqNo := ringNumber v
    let tail := (v.extractLsb' 0 10).toNat
    let size := sqSize s.block q
    let r := s.fetcher.rings[q]
    let refused := exec (.post v) s = .next { s with ctl := { s.ctl with rangeError := true } }
    let active := s.ctl.state = .running ∨ s.ctl.state = .draining
    (¬ active → exec (.post v) s = .next { s with ctl := { s.ctl with misplacedWrite := true } }) ∧
    (active → size = 0 ∨ size ≤ tail → refused) ∧
    (active → tail < size → (tail + size - r.head) % size < (r.tail + size - r.head) % size → refused) ∧
    (active → tail < size → (r.tail + size - r.head) % size ≤ (tail + size - r.head) % size →
      exec (.post v) s = .next { s with
        fetcher := { s.fetcher with rings := s.fetcher.rings.set q { r with tail := tail } } })

/-- RELEASE (08 R151), its four cases in their order: the amount is (head − present head) mod size, or the size for a full
ring released whole. -/
def Obligations.ReleaseWrite : Prop :=
  ∀ (v : Word) (s : State), s.ctl.windowOpen = true →
    let q : CqNo := ringNumber v
    let head := (v.extractLsb' 0 10).toNat
    let size := cqSize s.block q
    let r := s.writer.rings[q]
    let apart := (head + size - (r.tail + size - r.occupancy) % size) % size
    let amount := if apart = 0 ∧ r.occupancy = size then size else apart
    let refused := exec (.release v) s = .next { s with ctl := { s.ctl with rangeError := true } }
    let active := s.ctl.state = .running ∨ s.ctl.state = .draining
    (¬ active → exec (.release v) s = .next { s with ctl := { s.ctl with misplacedWrite := true } }) ∧
    (active → size = 0 ∨ size ≤ head → refused) ∧
    (active → head < size → r.occupancy < amount → refused) ∧
    (active → head < size → amount ≤ r.occupancy →
      exec (.release v) s = .next { s with
        writer := { s.writer with rings := s.writer.rings.set q { r with occupancy := r.occupancy - amount } } })

/-- CLAIM (09 R161, R162): FAULT while the fault request is eligible; else the flagged notify-enabled CQ of the highest
level above the top, the lowest number among equals; else NONE. It changes what 09 Table 9.2 says, and answers the word of
11 Table 11.6 on the lanes read (lanes not read are the model's choice 0, notes/assumptions/10.md). -/
def Obligations.ClaimRead : Prop :=
  ∀ (lanes : Lanes) (s : State), s.ctl.windowOpen = true →
    let eligible := s.notice.faultRequest = true ∧ inService s.notice.inService 5 = false
    let claimed (q : CqNo) := notifyEnabled s.block q = true ∧ s.notice.cqs[q].flag = true ∧
      ∀ k, inService s.notice.inService k = true → k < cqLevel s.block q
    let level (q : CqNo) := cqLevel s.block q
    let answers (word : Word) (set : BitVec 5) (cqs : Vector CqNotice 4) :=
      ∃ t, exec (.claim lanes) s = .next t ∧ t.NotifyFollows ∧
        t = { s with
          ctl := { s.ctl with busWord := word &&& laneMask lanes }
          notice := { s.notice with inService := set, cqs := cqs, pin := t.notice.pin } }
    (eligible → answers (BitVec.ofNat 32 (5 * 16 + 2 * 65536)) (s.notice.inService ||| 0b10000#5) s.notice.cqs) ∧
    (∀ q : CqNo, ¬ eligible → claimed q →
      (∀ p, claimed p → level p < level q ∨ level p = level q ∧ q.val ≤ p.val) →
      answers (BitVec.ofNat 32 (q.val + 16 * level q + 256 * s.notice.cqs[q].newCount + 65536))
        (s.notice.inService ||| levelBit (level q))
        (s.notice.cqs.set q { newCount := 0, timer := none, flag := false })) ∧
    (¬ eligible → (∀ q, ¬ claimed q) → answers 0 s.notice.inService s.notice.cqs)

/-- ENDSERV (09 R164): the top of the in-service set is removed, whatever value is written, and NOTIFY follows; with an
empty set nothing changes. -/
def Obligations.EndservWrite : Prop :=
  ∀ (v : Word) (s : State), s.ctl.windowOpen = true →
    (s.notice.inService = 0 → exec (.endserv v) s = .next s) ∧
    (∀ k, inService s.notice.inService k = true → (∀ j, inService s.notice.inService j = true → j ≤ k) →
      ∃ t, exec (.endserv v) s = .next t ∧ t.NotifyFollows ∧
        (∀ j, inService t.notice.inService j = (inService s.notice.inService j && j != k)) ∧
        t = { s with notice := { s.notice with inService := t.notice.inService, pin := t.notice.pin } })

/-- The in-service set changes by three things only: a CLAIM adds a level above the top, an ENDSERV removes the top, a
reset empties it (09 R158). -/
def Obligations.InServiceChanges : Prop :=
  ∀ (c : Instr) (s t : State), exec c s = .next t → t.notice.inService ≠ s.notice.inService →
    (∃ lanes k, c = .claim lanes ∧ 1 ≤ k ∧ k ≤ 5 ∧ topLevel s.notice.inService < k ∧
      t.notice.inService = s.notice.inService ||| levelBit k) ∨
    (∃ v, c = .endserv v ∧
      t.notice.inService = s.notice.inService &&& ~~~ levelBit (topLevel s.notice.inService)) ∨
    ((c = .controllerResetTake ∨ c = .deviceResetAssert ∨ c = .deviceResetRelease) ∧ t.notice.inService = 0)

/-- Writes of part of a word (any bytes of it but all four), of read-only registers and of offsets 28H to 3CH change nothing
and set no flag (11 R185); while a controller reset waits or RESETn is low the window ignores every write, and a CLAIM read
answers 0 and changes nothing (R183, R184). -/
def Obligations.IgnoredAccesses : Prop :=
  (∀ (w : IgnoredWrite) (s : State), exec (.registerWriteIgnored w) s = .next s) ∧
  (∀ (k : Fin 16) (v : Word) (s : State), k = 0 ∨ k = 7 ∨ k = 9 ∨ 10 ≤ k → exec (registerWrite k v) s = .next s) ∧
  (∀ (k : Fin 16) (lanes : Lanes) (v : Word) (s : State), lanes ≠ 0b1111#4 →
    exec (registerWriteLanes k lanes v) s = .next s) ∧
  (∀ (k : Fin 16) (v : Word), registerWriteLanes k 0b1111#4 v = registerWrite k v) ∧
  ∀ (s : State), s.ctl.windowOpen = false →
    (∀ (k : Fin 16) (v : Word), exec (registerWrite k v) s = .next s) ∧
    ∀ lanes, exec (.claim lanes) s = .next { s with ctl := { s.ctl with busWord := 0 } }

/-! ### Descriptor block (chapter 8, 8.1) -/

/-- A descriptor read ends (08 R137, 11 R178, R179): the next read is requested; after a STOP the result is discarded and
the controller is STOPPED; a BUS_ERROR is the fault DESCRIPTOR_READ; after the fourth read the block is examined, a valid
block is loaded with the starting values of 08 R139 and the controller is RUNNING, an invalid one is a fault with no block
loaded. -/
def Obligations.DescriptorReadEnds : Prop :=
  ∀ (s : State) (t : Transfer) (k : Fin 4) (bytes : Record), s.inTransfer t → t.kind = .descriptorRead k →
    let kept := s.fetcher.kept ++ bytes.toList
    (s.ctl.loadEnding = true → ∀ e, exec (.descriptorReadEnd e) s = .next { s.transferOver with
      ctl := { s.ctl with state := .stopped, loadEnding := false }
      fetcher := { s.fetcher with outstanding := none, kept := [] } }) ∧
    (s.ctl.loadEnding = false →
      (∃ u, exec (.descriptorReadEnd .busError) s = .next u ∧ s.FaultedFrom u .descriptorRead .none) ∧
      (k.val < 3 → exec (.descriptorReadEnd (.ok bytes)) s = .next { s.transferOver with
        fetcher := { s.fetcher with
          kept
          outstanding := some
            { kind := .descriptorRead (k + 1)
              extent := { address := s.ctl.qbase + BitVec.ofNat 40 (32 * (k.val + 1)), size := 32, bytes := [] } } } }) ∧
      (k.val = 3 → ∀ b, examine kept = .valid b →
        ∃ u, exec (.descriptorReadEnd (.ok bytes)) s = .next u ∧ u.NotifyFollows ∧
          u = { s.transferOver with
            ctl := { s.ctl with state := .running }
            block := some b
            fetcher := { rings := Vector.replicate 4 { head := 0, tail := 0 }, turn := 3, credit := 0, outstanding := none,
                         kept := [] }
            fences := Vector.replicate 4 none
            writer := { rings := Vector.replicate 4 { tail := 0, lap := true, occupancy := 0 }, lastServed := 3,
                        outstanding := none }
            notice := { s.notice with
              cqs := Vector.replicate 4 { newCount := 0, timer := none, flag := false }, pin := u.notice.pin }
            lines := s.lines.map fun l =>
              if b.cqs[l.record.eventCq].size = 0 then { l with record := { l.record with enable := 0 } } else l }) ∧
      (k.val = 3 → ∀ source, examine kept = .invalid source →
        ∃ u, exec (.descriptorReadEnd (.ok bytes)) s = .next u ∧
          State.FaultedFrom
            { s with
              block := none
              fetcher := { s.fetcher with rings := Vector.replicate 4 { head := 0, tail := 0 } }
              writer := { s.writer with rings := Vector.replicate 4 { tail := 0, lap := true, occupancy := 0 } } }
            u .descriptorInvalid source))

/-- The examination of a descriptor block (08 R138): SQ0 to SQ3, then CQ0 to CQ3, the first that fails is the source; with
none failing and no used SQ the source is none; else the block is valid, with the fields as read. -/
def Obligations.BlockExamination : Prop :=
  ∀ bytes : List Byte,
    let sqSizeOf (q : SqNo) := field (descriptorBytes bytes q.val) 8 2
    let cqSizeOf (q : CqNo) := field (descriptorBytes bytes (4 + q.val)) 8 2
    (∀ q : SqNo, examine bytes = .invalid (.sq q) ↔
      ¬ SqDescriptorFits bytes q ∧ ∀ p : SqNo, p < q → SqDescriptorFits bytes p) ∧
    (∀ q : CqNo, examine bytes = .invalid (.cq q) ↔
      (∀ p, SqDescriptorFits bytes p) ∧ ¬ CqDescriptorFits bytes q ∧ ∀ p : CqNo, p < q → CqDescriptorFits bytes p) ∧
    (examine bytes = .invalid .none ↔
      (∀ p, SqDescriptorFits bytes p) ∧ (∀ p, CqDescriptorFits bytes p) ∧ ∀ q, sqSizeOf q = 0) ∧
    (∀ b, examine bytes = .valid b →
      (∀ p, SqDescriptorFits bytes p) ∧ (∀ p, CqDescriptorFits bytes p) ∧ (∃ q, sqSizeOf q ≠ 0) ∧
      (∀ q : SqNo, b.sqs[q].size = sqSizeOf q ∧ (sqSizeOf q ≠ 0 →
        let d := descriptorBytes bytes q.val
        b.sqs[q].base.toNat = field d 0 8 ∧ b.sqs[q].cq.val = field d 10 1 ∧ b.sqs[q].weight = field d 11 1)) ∧
      ∀ q : CqNo, b.cqs[q].size = cqSizeOf q ∧ (cqSizeOf q ≠ 0 →
        let d := descriptorBytes bytes (4 + q.val)
        b.cqs[q].base.toNat = field d 0 8 ∧ b.cqs[q].level.code = field d 10 1 ∧
        (b.cqs[q].notify = true ↔ field d 11 1 = 1) ∧ b.cqs[q].threshold = field d 12 1 ∧
        b.cqs[q].delay = field d 13 1))

/-! ### Fetching and dispatch (chapters 1 and 8) -/

/-- FETCH_ISSUE (08 R142 to R144, 01 R3): in RUNNING, with no fetch outstanding and entry `i` the lowest free one (the model's
choice, notes/assumptions/8.md), the SQ holding the turn goes on while it may supply and has credit; otherwise the first SQ
after it that may supply takes the turn with its weight. The entry is reserved with the SQ and its CQ. Where any condition
fails nothing changes. -/
def Obligations.FetchIssues : Prop :=
  ∀ s : State,
    (s.ctl.state ≠ .running ∨ s.fetcher.outstanding ≠ none ∨ (∀ i, (s.entry i).isSome = true) ∨ (∀ q, ¬ s.maySupply q) →
      exec .fetchIssue s = .next s) ∧
    ∀ (b : Block) (i : Slot), s.ctl.state = .running → s.fetcher.outstanding = none → s.block = some b →
      s.entry i = none → (∀ j, j < i → (s.entry j).isSome = true) →
      let turn := s.fetcher.turn
      let issued (q : SqNo) (credit : Nat) := exec .fetchIssue s = .next { s with
        fetcher := { s.fetcher with
          turn := q
          credit := credit - 1
          outstanding := some
            { kind := .recordFetch q i
              extent := { address := b.sqs[q].base + BitVec.ofNat 40 (32 * s.fetcher.rings[q].head), size := 32,
                          bytes := [] } } }
        table := s.table.set i (some { sq := q, cq := b.sqs[q].cq, header := none }) }
      (s.maySupply turn → 1 ≤ s.fetcher.credit → issued turn s.fetcher.credit) ∧
      ∀ q : SqNo, ¬ (s.maySupply turn ∧ 1 ≤ s.fetcher.credit) → s.maySupply q →
        (∀ p : SqNo, s.maySupply p → (q.val + 3 - turn.val) % 4 ≤ (p.val + 3 - turn.val) % 4) →
        issued q b.sqs[q].weight

/-- The checks of 01 Table 1.5 in their order: what each refusal means of the record (01 R9), and the line answered with it
(R10): the line byte if step 2 passed, none otherwise. A body is read as the fields of 11 Table 11.8 at their offsets, each
within its range and every reserved byte zero, with the field checks of its kind (02 R26, R37, R39); a header's flags hold no
bit but URGENT and its reserved bytes are zero. On a configured line, a class other than ALL on a POLL line, an address mark
without 9 data bits or a CTS limit without hardware flow is a BAD_FIELD too (02 R39, R42). A FENCE passes or is a BAD_FIELD. -/
def Obligations.ValidationOrder : Prop :=
  ∀ (block : Option Block) (lines : Vector Line 16) (r : List Byte),
    let code := Kind.ofCode (field r 0 1)
    let decided (st : Status) := ∃ line, verdict block lines r = .refused st line
    (decided .badKind ↔ code = none) ∧
    (decided .badLine ↔ ∃ k, code = some k ∧ k ≠ .fence ∧ 16 ≤ field r 2 1) ∧
    (∀ st line, verdict block lines r = .refused st line →
      st = .badKind ∨ st = .badLine ∨ st = .badField ∨ st = .lineDisabled ∨ st = .wrongMode) ∧
    (∀ k (h : field r 2 1 < 16), code = some k → k ≠ .fence →
      let l := lines[field r 2 1]
      let body := parseBody block k r
      let fits := ∃ b, body = some b ∧ headerFits r = true ∧ recordAdmits l.record b = true
      (decided .badField ↔ ¬ fits) ∧
      (decided .lineDisabled ↔ fits ∧ k.isData = true ∧ l.state ≠ .enabled) ∧
      (decided .wrongMode ↔ fits ∧ (k.isData = true → l.state = .enabled) ∧ l.record.configured = true ∧
        ((k = .poll ∧ l.record.mode = .stream) ∨ ((k = .postBuffer ∨ k = .flushRx) ∧ l.record.mode = .poll)))) ∧
    (code = some .fence →
      let fits := headerFits r = true ∧ field r 2 1 = 0 ∧ ∀ b ∈ (r.drop 8).take 24, b = 0#8
      (decided .badField ↔ ¬ fits) ∧ ¬ decided .lineDisabled ∧ ¬ decided .wrongMode ∧
      (fits → verdict block lines r = .accepted none .fence)) ∧
    (∀ line, (∃ st, verdict block lines r = .refused st line) ∨ (∃ b, verdict block lines r = .accepted line b) →
      ∀ n : LineNo, line = some n ↔ code ≠ none ∧ code ≠ some .fence ∧ field r 2 1 = n.val) ∧
    (∀ k b, parseBody block k r = some b ↔ BodyFits block r k b) ∧
    (headerFits r = true ↔ field r 1 1 ≤ 1 ∧ field r 3 1 = 0 ∧ field r 6 2 = 0) ∧
    ∀ (l : LineRecord) (b : Body), recordAdmits l b = true ↔ (l.configured = true →
      (∀ c, b = .command (.abort c) → l.mode = .poll → c = .all) ∧
      ∀ x, b = .send x → (x.markFirst = true → l.dataBits = .nine) ∧ (x.ctsLimit ≠ 0 → l.flow = .hardware))

/-- An accepted record's body is what its bytes spell (11 Table 11.8), for the line its line byte names; every field of an
accepted data record is within the range its chapter gives (04 R65, 05 R87, 06 R107, 02 R42), and its line is ENABLED and of
its mode (01 Table 1.5, steps 4a and 4b). -/
def Obligations.AcceptedDataRecordsFit : Prop :=
  ∀ (block : Option Block) (lines : Vector Line 16) (r : List Byte) (line : Option LineNo) (body : Body),
    verdict block lines r = .accepted line body →
    let enabledIn (mode : Mode) := ∃ n, line = some n ∧ lines[n].state = .enabled ∧
      (lines[n].record.configured = true → lines[n].record.mode = mode)
    (∃ k, Kind.ofCode (field r 0 1) = some k ∧ BodyFits block r k body ∧
      (k = .fence → line = none) ∧ (k ≠ .fence → ∃ n : LineNo, line = some n ∧ n.val = field r 2 1)) ∧
    (∀ b, body = .send b →
      1 ≤ b.length ∧ b.length ≤ 4096 ∧ b.address.toNat + b.length ≤ 2 ^ 40 ∧ b.breakBefore ≤ 15 ∧ b.gap ≤ 255 ∧
      b.ctsLimit ≤ 255 ∧ ∃ n, line = some n ∧ lines[n].state = .enabled ∧ (lines[n].record.configured = true →
        (b.markFirst = true → lines[n].record.dataBits = .nine) ∧ (b.ctsLimit ≠ 0 → lines[n].record.flow = .hardware))) ∧
    (∀ b, body = .buffer b →
      1 ≤ b.capacity ∧ b.capacity ≤ 4096 ∧ b.address.toNat + b.capacity ≤ 2 ^ 40 ∧ enabledIn .stream) ∧
    (∀ b, body = .poll b →
      b.payloadLength ≤ 256 ∧ b.replyCapacity ≤ 256 ∧ b.payloadAddress.toNat + b.payloadLength ≤ 2 ^ 40 ∧
      b.replyAddress.toNat + b.replyCapacity ≤ 2 ^ 40 ∧ 1 ≤ b.replyGap ∧ b.replyGap ≤ 255 ∧ 1 ≤ b.timeout ∧
      b.timeout ≤ 255 ∧ b.retries ≤ 7 ∧ enabledIn .poll)

/-- A record that the dispatcher completes at once (01 R10): refused, or a data record accepted in DRAINING. Its completion has
the tag, kind and URGENT of the record, its SQ and CQ, the line if it passed step 2 and 0 otherwise, count 0 and detail 0;
the part otherwise changes by the fetch alone, so that no line is touched. -/
def Obligations.RecordCompletedAtOnce : Prop :=
  ∀ (s : State) (t : Transfer) (q : SqNo) (i : Slot) (e : Entry) (r : Record) (st : Status) (line : Option LineNo),
    s.inTransfer t → t.kind = .recordFetch q i → s.entry i = some e → s.dispatcherWaits →
    (verdict s.block s.lines r.toList = .refused st line ∨
      st = .stopped ∧ s.ctl.state = .draining ∧
        ∃ b, verdict s.block s.lines r.toList = .accepted line b ∧ b ≠ .fence ∧ ∀ c, b ≠ .command c) →
    let filled : Entry := e.filled r.toList line
    let result : Result := { status := st, count := 0, detail := 0 }
    filled.completion result = { tag := BitVec.ofNat 16 (field r.toList 4 2), kind := BitVec.ofNat 8 (field r.toList 0 1),
                                 status := st, line := line.getD 0, sq := e.sq, count := 0, detail := 0 } ∧
    ∃ v u, (s.afterFetch q).CompletedAtOnce v i filled result ∧ s.DispatchLeaves v q u ∧
      exec (.recordFetchEnd (.ok r)) s = .next u

/-- An accepted record joins its destination (01 R11, R14, 04 R66): a line command its control list, ACTIVE if it is the head;
a SEND the TX list or the POLL work list; a POLL the work list; a POST_BUFFER the RX buffer list, as the head buffer if it
was empty; a FENCE the fence logic, with the other entries of its SQ as its wait set.
(DISPATCHED ends in the same step: notes/assumptions/28.md.) -/
def Obligations.RecordRouted : Prop :=
  ∀ (s : State) (t : Transfer) (q : SqNo) (i : Slot) (e : Entry) (r : Record) (line : Option LineNo) (body : Body),
    s.inTransfer t → t.kind = .recordFetch q i → s.entry i = some e → s.dispatcherWaits →
    verdict s.block s.lines r.toList = .accepted line body →
    let n := line.getD 0
    let l := s.line n
    let v := (s.afterFetch q).setEntry i (some (e.filled r.toList line))
    let leaves (w : State) := ∃ u, exec (.recordFetchEnd (.ok r)) s = .next u ∧ s.DispatchLeaves w q u
    let listed {β : Type} (b : β) : Member β := { slot := i, phase := .listed, body := b }
    (∀ c, body = .command c → leaves (v.setLine n { l with
      control := l.control ++ [{ slot := i, phase := if l.control = [] then .active else .listed, body := c }] })) ∧
    (body = .fence → ∃ members : List Slot, members.Nodup ∧
      (∀ j, j ∈ members ↔ j ≠ i ∧ ∃ x, v.entry j = some x ∧ x.sq = q) ∧
      leaves { v with fences := s.fences.set q (some { slot := i, waitSet := members, count := members.length }) }) ∧
    (s.ctl.state ≠ .draining →
      (∀ b, body = .send b → l.isPoll = false →
        leaves (v.setLine n { l with tx := { l.tx with list := l.tx.list ++ [listed b] } })) ∧
      (∀ b, body = .send b → l.isPoll = true →
        leaves (v.setLine n { l with poll := { l.poll with list := l.poll.list ++ [listed (.send b)] } })) ∧
      (∀ b, body = .poll b →
        leaves (v.setLine n { l with poll := { l.poll with list := l.poll.list ++ [listed (.poll b)] } })) ∧
      (∀ b, body = .buffer b → l.filler.list ≠ [] →
        leaves (v.setLine n { l with filler := { l.filler with list := l.filler.list ++ [listed b] } })) ∧
      ∀ b, body = .buffer b → l.filler.list = [] →
        leaves (v.setLine n { l with filler :=
          { list := [{ slot := i, phase := .active, body := b }], state := .filling, fill := 0, written := 0, errors := 0,
            dropped := 0, firstMarked := false, reason := .none, endStatus := none, assembly := [],
            outstanding := l.filler.outstanding, flush := l.filler.flush } }))

/-- FENCE_WAIT_SET_EMPTY (01 R15, 08 R145): with its wait set empty a FENCE completes OK with the count its wait set was formed
with, and the hold on its SQ ends; with members left nothing happens.
(A step that cannot come about changes nothing, the model's choice: notes/assumptions/3.md.) -/
def Obligations.FenceFinishes : Prop :=
  ∀ (s : State) (q : SqNo) (f : Fence), s.fences[q] = some f →
    let released : State := { s with fences := s.fences.set q none }
    let r : Result := { status := .ok, count := BitVec.ofNat 16 f.count, detail := 0 }
    let kept : State := { released with fencesDone := s.fencesDone ++ [(f.slot, r)] }
    (f.waitSet ≠ [] → exec (.fenceWaitSetEmpty q) s = .next s) ∧
    (∀ e, f.waitSet = [] → s.entry f.slot = some e → (s.fencesDone ≠ [] ↔ .fence ∈ s.backlog.waiting) →
      (s.hasRoom → exec (.fenceWaitSetEmpty q) s = .next (released.withAdmitted f.slot e r)) ∧
      (¬ s.hasRoom → s.fencesDone = [] → exec (.fenceWaitSetEmpty q) s = .next (kept.withWaiting .fence)) ∧
      (¬ s.hasRoom → s.fencesDone ≠ [] → exec (.fenceWaitSetEmpty q) s = .next kept))

/-- A record fetch or completion write that ends with BUS_ERROR sends the part to FAULTED with SQ_FETCH and the SQ, or
CQ_WRITE and the CQ (01 R3, 08 R144, R150, 11 Table 11.3, R182).
(An end of another kind of transfer is no end: notes/assumptions/3.md.) -/
def Obligations.TransferFaults : Prop :=
  ∀ (s : State) (t : Transfer), s.inTransfer t →
    (∀ q i, t.kind = .recordFetch q i →
      ∃ u, exec (.recordFetchEnd .busError) s = .next u ∧ s.FaultedFrom u .sqFetch (.sq q)) ∧
    ∀ q, t.kind = .completionWrite q →
      ∃ u, exec (.completionWriteEnd .busError) s = .next u ∧ s.FaultedFrom u .cqWrite (.cq q)

/-! ### Memory port (chapter 10) -/

/-- PORT_GRANT (10 R170, R171, R174): with no transfer in flight, the completion writer's request is granted first, and
otherwise that of the first requester found going round from the one last granted (fetcher, lines 0 to 15, report writer);
a line presents its write before its read. Nothing is granted while a transfer is in flight or a controller reset waits;
while one waits, the transfer in flight ends with its result discarded, OK or BUS_ERROR, and no fault. -/
def Obligations.PortGrantsAndReset : Prop :=
  (∀ (s : State) (t : Transfer), s.port.inFlight = some t → s.ctl.resetWaits = true →
    let ends (i : Instr) := exec i s = .next { s with port := { s.port with inFlight := none } }
    match t.kind with
    | .descriptorRead _ => ∀ e, ends (.descriptorReadEnd e)
    | .recordFetch _ _ => ∀ e, ends (.recordFetchEnd e)
    | .txDataRead n | .payloadRead n => ∀ e cts, ends (.txDataReadEnd n e cts)
    | .rxBufferWrite n => ∀ e, ends (.rxBufferWriteEnd n e)
    | .replyWrite n => ∀ e, ends (.replyWriteEnd n e)
    | .reportWrite _ => ∀ e, ends (.reportWriteEnd e)
    | .completionWrite _ => ∀ e, ends (.completionWriteEnd e)) ∧
  ∀ s : State,
    (s.port.inFlight ≠ none ∨ s.ctl.resetWaits = true → exec .portGrant s = .next s) ∧
    (s.ctl.windowOpen = true → s.port.inFlight = none →
      (∀ t, s.writer.outstanding = some t → exec .portGrant s = .next { s with port := { s.port with inFlight := some t } }) ∧
      (s.writer.outstanding = none →
        (∀ r t, s.requestOf r = some t →
          (∀ p, (s.requestOf p).isSome = true → (r.position + 17 - s.port.last.position) % 18 ≤
            (p.position + 17 - s.port.last.position) % 18) →
          exec .portGrant s = .next { s with port := { inFlight := some t, last := r } }) ∧
        ((∀ r, s.requestOf r = none) → exec .portGrant s = .next s))) ∧
    ∀ n : LineNo,
      let l := s.line n
      let write := if l.record.mode = .poll then l.poll.outstanding else l.filler.outstanding
      (∀ x, write = some x → ∃ k, s.requestOf (.line n) = some { kind := k, extent := x } ∧
        (k = if l.record.mode = .poll then .replyWrite n else .rxBufferWrite n)) ∧
      (∀ x, write = none → l.tx.outstanding = some x →
        ∃ k, s.requestOf (.line n) = some { kind := k, extent := x } ∧ (k = .txDataRead n ∨ k = .payloadRead n)) ∧
      (write = none → l.tx.outstanding = none → s.requestOf (.line n) = none)

/-! ### Backlog, completion rings and notification (chapters 1, 7, 8, 9) -/

/-- EVENT_OFFER (07 R131, 01 R19): with a pending bit, no entry queued or offered, the controller RUNNING and the event CQ
used, the line's event entry takes a slot, or the event unit waits; otherwise no offer is made.
(With a slot free the offer still waits while others wait: notes/assumptions/7.md.) -/
def Obligations.EventOffered : Prop :=
  ∀ (n : LineNo) (s : State),
    let l := s.line n
    let may := l.event.pending ≠ 0 ∧ l.event.queued = false ∧ .event n ∉ s.backlog.waiting ∧ s.ctl.state = .running ∧
      cqSize s.block l.record.eventCq ≠ 0
    (may → s.hasRoom → exec (.eventOffer n) s = .next
      { s.setLine n { l with event := { l.event with queued := true } } with
        backlog := { s.backlog with entries := s.backlog.entries ++ [.event l.record.eventCq n] } }) ∧
    (may → ¬ s.hasRoom → exec (.eventOffer n) s = .next (s.withWaiting (.event n))) ∧
    (¬ may → exec (.eventOffer n) s = .next s)

/-- BACKLOG_GRANT (01 R21): a free slot goes to the first waiting producer found after the position last granted, whose
position is then the last granted; its entry is admitted, and for a record its table entry is freed. Entries that the
admission lets the same line or unit offer may follow; where there are none, the admission is all that changes. What the
admission of a record's completion does to the unit that composed it (R6, R14, R20): the record leaves the dispatcher, the
fence logic or its list; the next command becomes ACTIVE (02 R31); the poll engine is in NONE (06 R106); the next buffer
becomes the head, or the filler is IDLE and NO_BUFFER is raised with entries staged (04 R66, R67, R78, R79); an ABORT_LINE
that waits for the record waits for it no longer (02 R39). A FLUSH_RX in progress is the matter of
`Obligations.ResumeAndFlush`. (The order of offers made at one moment is free: notes/assumptions/6.md; that a new offer
joins those waiting: 7.md.) -/
def Obligations.BacklogGrants : Prop :=
  (∀ s : State,
    (32 ≤ s.backlog.entries.length ∨ s.backlog.waiting = [] → exec .backlogGrant s = .next s) ∧
    ∀ p : Producer, s.backlog.entries.length < 32 → p ∈ s.backlog.waiting →
      (∀ o ∈ s.backlog.waiting, (p.position + 65 - s.backlog.lastGranted.position) % 66 ≤
        (o.position + 65 - s.backlog.lastGranted.position) % 66) →
      let after (t : State) (granted : BacklogEntry) := exec .backlogGrant s = .next t ∧ t.backlog.lastGranted = p ∧
        ∃ more others, t.backlog.entries = s.backlog.entries ++ granted :: more ∧
          t.backlog.waiting = s.backlog.waiting.erase p ++ others
      let granted : State := { s with
        backlog := { s.backlog with waiting := s.backlog.waiting.erase p, lastGranted := p } }
      (∀ n, p = .event n → ∃ t, after t (.event (s.line n).record.eventCq n) ∧ (t.line n).event.queued = true ∧
        t.table = s.table) ∧
      (∀ i r, s.onOffer p = some (i, r) → ∀ e, s.entry i = some e →
        ∃ t, after t (.completion e.cq ((e.header.map Header.urgent).getD false) (e.completion r)) ∧ t.entry i = none) ∧
      let t := granted.enterBacklog p
      ((∀ o, (t.onOffer o).isSome = true → o ∈ t.backlog.waiting) → exec .backlogGrant s = .next t)) ∧
  (∀ (s : State) (p : Producer),
    (s.hasRoom → s.offer p = s.enterBacklog p) ∧ (¬ s.hasRoom → s.offer p = s.withWaiting p)) ∧
  (∀ (s : State) (i : Slot) (e : Entry) (r : Result), s.entry i = some e →
    let admitted := s.withAdmitted i e r
    (s.onOffer .dispatcher = some (i, r) →
      s.enterBacklog .dispatcher = { admitted with dispatched := s.dispatched.tail }) ∧
    (s.onOffer .fence = some (i, r) → s.enterBacklog .fence = { admitted with fencesDone := s.fencesDone.tail }) ∧
    ∀ n : LineNo,
      let l := s.line n
      let becomes (p : Producer) (k : Line) := s.onOffer p = some (i, r) → s.enterBacklog p = admitted.setLine n k
      becomes (.control n) { l with control := activateHead l.control.tail, progress := .untaken } ∧
      becomes (.transmitter n) (Line.recordEntered { l with tx := { l.tx with list := l.tx.list.tail } } i) ∧
      (l.record.mode = .poll →
        becomes (.data n)
          (Line.recordEntered { l with poll := { l.poll with list := l.poll.list.tail, attempt := .none } } i)) ∧
      (l.record.mode = .stream → becomes (.data n) (l.bufferEntered i r))) ∧
  (∀ (c : Member LineCommand) (cs : List (Member LineCommand)), c.phase = .listed →
    activateHead (c :: cs) = { c with phase := .active } :: cs) ∧
  ∀ (l : Line) (i : Slot) (r : Result),
    ((∀ waitFor count, l.progress ≠ .abort waitFor count) → l.recordEntered i = l) ∧
    ∃ w, l.BufferLeft w ∧ (l.progress ≠ .flush → l.progress ≠ .flushHanded → l.bufferEntered i r = w.recordEntered i)

/-- WRITER_TAKE_ENTRY (08 R148, R149, 07 R132, R133): in RUNNING or DRAINING, with no write outstanding, the writer serves the
first serviceable CQ after the one last served, takes its oldest entry and requests the write of its 16 bytes at the tail,
with the CQ's lap bit; an event entry is captured first, which clears the line's pending bits, stray count and flag. -/
def Obligations.WriterTakesEntry : Prop :=
  ∀ s : State,
    let serviceable (q : CqNo) := (∃ e ∈ s.backlog.entries, e.cq = q) ∧ s.writer.rings[q].occupancy < cqSize s.block q
    (s.ctl.state ≠ .running ∧ s.ctl.state ≠ .draining ∨ s.writer.outstanding ≠ none ∨ (∀ q, ¬ serviceable q) →
      exec .writerTakeEntry s = .next s) ∧
    ∀ (b : Block) (q : CqNo) (e : BacklogEntry) (before behind : List BacklogEntry),
      s.ctl.state = .running ∨ s.ctl.state = .draining → s.writer.outstanding = none → s.block = some b →
      s.backlog.entries = before ++ e :: behind → (∀ x ∈ before, x.cq ≠ q) → e.cq = q →
      s.writer.rings[q].occupancy < b.cqs[q].size →
      (∀ p, serviceable p →
        (q.val + 3 - s.writer.lastServed.val) % 4 ≤ (p.val + 3 - s.writer.lastServed.val) % 4) →
      let writing (c : Completion) : Writer := { s.writer with
        lastServed := q
        outstanding := some
          { kind := .completionWrite q
            extent := { address := b.cqs[q].base + BitVec.ofNat 40 (16 * s.writer.rings[q].tail), size := 16,
                        bytes := completionBytes c s.writer.rings[q].lap } } }
      (∀ urgent c, e = .completion q urgent c → exec .writerTakeEntry s = .next { s with writer := writing c }) ∧
      ∀ n, e = .event q n →
        let l := s.line n
        let c : Completion := { tag := 0xFFFF#16, kind := 0x20#8, status := .ok, line := n, sq := 0,
                                count := BitVec.ofNat 16 l.rx.lost,
                                detail := BitVec.ofNat 32 (l.event.pending.toNat + 256 * l.rx.stray) }
        exec .writerTakeEntry s = .next
          { s.setLine n { l with event := { pending := 0, queued := false }, rx := { l.rx with stray := 0 } } with
            writer := writing c
            backlog := { s.backlog with entries := before ++ .completion q false c :: behind } }

/-- COMPLETION_WRITE_END OK (08 R149, 01 R18, 09 R155, R156): the entry leaves its slot, the tail advances, the lap bit changes
as the tail wraps, the occupancy rises; a notify-enabled CQ counts the completion, starts its delay timer if stopped and
the delay is not 0, and sets its flag at the threshold or for an URGENT completion; NOTIFY follows. -/
def Obligations.CompletionWritten : Prop :=
  ∀ (s : State) (t : Transfer) (b : Block) (q : CqNo) (e : BacklogEntry) (before behind : List BacklogEntry),
    s.inTransfer t → t.kind = .completionWrite q → s.block = some b → s.NotifyFollows →
    s.backlog.entries = before ++ e :: behind → (∀ x ∈ before, x.cq ≠ q) → e.cq = q →
    let r := s.writer.rings[q]
    let tail := if r.tail + 1 < b.cqs[q].size then r.tail + 1 else 0
    let c := s.notice.cqs[q]
    let count := if c.newCount + 1 ≤ 64 then c.newCount + 1 else 64
    let enabled := b.cqs[q].size ≠ 0 ∧ b.cqs[q].notify = true
    let urgent := ∃ x, e = .completion q true x
    ∃ u, exec (.completionWriteEnd .ok) s = .next u ∧ u.NotifyFollows ∧
      u = { s.transferOver with
        writer := { s.writer with
          outstanding := none
          rings := s.writer.rings.set q { tail, lap := if tail = 0 then !r.lap else r.lap, occupancy := r.occupancy + 1 } }
        backlog := { s.backlog with entries := before ++ behind }
        notice := { s.notice with cqs := s.notice.cqs.set q u.notice.cqs[q], pin := u.notice.pin } } ∧
      (¬ enabled → u.notice.cqs[q] = c) ∧
      (enabled →
        u.notice.cqs[q].newCount = count ∧
        (u.notice.cqs[q].flag = true ↔ c.flag = true ∨ b.cqs[q].threshold ≤ count ∨ urgent) ∧
        u.notice.cqs[q].timer = if c.timer = none ∧ b.cqs[q].delay ≠ 0 then some b.cqs[q].delay else c.timer)

/-- DELAY_TIMER_EXPIRE (09 R156): a running delay timer stops, and the request flag is set if the new count is at least 1;
NOTIFY follows; a stopped timer does not expire.
(Expiry is a command, and a stopped timer ignores it: notes/assumptions/3.md, 4.md.) -/
def Obligations.DelayTimerExpires : Prop :=
  ∀ (q : CqNo) (s : State),
    let c := s.notice.cqs[q]
    (c.timer = none → exec (.delayTimerExpire q) s = .next s) ∧
    (c.timer ≠ none → ∃ t, exec (.delayTimerExpire q) s = .next t ∧ t.NotifyFollows ∧
      t = { s with notice := { s.notice with
        cqs := s.notice.cqs.set q { c with timer := none, flag := if 1 ≤ c.newCount then true else c.flag }
        pin := t.notice.pin } })

/-! ### Line commands (chapter 2) -/

/-- Commands that 02 Table 2.8 refuses or ends at once at the head (R32): BAD_STATE in ENABLED for CONFIGURE_LINE and
ENABLE_LINE, for FLUSH_RX and ABORT_LINE of class TX or RX on a POLL line, and for ENABLE_LINE on an unconfigured line; on a
DISABLED line OK with count 0 for DISABLE_LINE, ABORT_LINE and FLUSH_RX (detail 3, nothing closed). -/
def Obligations.CommandsEndAtHead : Prop :=
  ∀ (s : State) (n : LineNo) (m : Member LineCommand) (ms : List (Member LineCommand)),
    s.CommandAtHead n m ms .untaken →
    let l := s.line n
    let ends (i : Instr) (st : Status) (detail : Word) :=
      ∃ t, exec i s = .next t ∧ s.CommandEnds t n m ms l { status := st, count := 0, detail }
    (l.state = .enabled →
      (∀ r, m.body = .configure r → ends (.configureLine n) .badState 0) ∧
      (m.body = .enable → ends (.enableLine n) .badState 0) ∧
      (l.record.mode = .poll → m.body = .abort .tx ∨ m.body = .abort .rx → ends (.abortLine n) .badState 0) ∧
      (l.record.mode = .poll → m.body = .flushRx → ends (.flushRx n) .badState 0)) ∧
    (l.state = .disabled →
      (m.body = .enable → l.record.configured = false → ends (.enableLine n) .badState 0) ∧
      (m.body = .disable → ends (.disableLine n) .ok 0) ∧
      (∀ c, m.body = .abort c → ends (.abortLine n) .ok 0) ∧
      (m.body = .flushRx → ends (.flushRx n) .ok 3))

/-- CONFIGURE_LINE and ENABLE_LINE on a DISABLED line (02 R33, R34, Table 2.6): the whole record is replaced; a configured line
is ENABLED with its rate generator running at D + 1 periods to the sample, its receiver in HUNT with nothing staged, RTS and
DE asserted on a STREAM line and deasserted on a POLL line. Both complete OK. -/
def Obligations.ConfigureAndEnable : Prop :=
  ∀ (s : State) (n : LineNo) (m : Member LineCommand) (ms : List (Member LineCommand)),
    s.CommandAtHead n m ms .untaken →
    let l := s.line n
    let ok : Result := { status := .ok, count := 0, detail := 0 }
    l.state = .disabled → l.tx.list = [] → l.filler.list = [] → l.poll.list = [] →
    (∀ r, m.body = .configure r →
      ∃ t, exec (.configureLine n) s = .next t ∧ s.CommandEnds t n m ms { l with record := r } ok) ∧
    (m.body = .enable → l.record.configured = true →
      let stream := decide (l.record.mode = .stream)
      ∃ t, exec (.enableLine n) s = .next t ∧ s.CommandEnds t n m ms
        { l with
          state := .enabled
          rate := some (l.record.divisor.toNat + 1)
          rts := stream
          de := stream
          rx := { l.rx with state := .hunt, read := [], sample := 0, fifo := [], held := false, idleTimer := none,
                            armed := false }
          tx := { l.tx with state := .idle, txd := .mark }
          poll := { l.poll with attempt := .none, window := false, quiet := !stream } } ok)

/-- DISABLE_LINE (02 R35, R36). On an ENABLED line: DISABLING, the receiver OFF, RTS deasserted, nothing left LISTED on the
line's data lists, the command at the head with the number of records it ended: each LISTED record completes LINE_DISABLED
with count 0 and detail 0, and the current SEND, the head buffer or the current record of the poll engine ends LINE_DISABLED
as its unit stands (05 R101 to R103, 04 R83, R85, 06 R123 to R125), offered at that moment; these, and no others, are the
records it ended. (What those ends rest on is in part the model's choice: a character in shift, notes/assumptions/14.md; an
end decided before, 15.md, and by a payload BUS_ERROR, 17.md; an outcome decided before, 18.md; the window in SETTLE, 27.md;
the armed flag, 30.md; the end state NONE of a SEND cut in GUARD, 32.md.) The DISABLED step, with the three data lists
empty: the FIFO discarded, HELD cleared, outputs idle, the rate generator stopped, the command OK with its count. -/
def Obligations.DisableLineSteps : Prop :=
  (∀ (s : State) (n : LineNo) (m : Member LineCommand) (ms : List (Member LineCommand)),
    let l := s.line n
    (s.CommandAtHead n m ms .untaken → m.body = .disable → l.state = .enabled →
      ∃ t, exec (.disableLine n) s = .next t ∧ s.SameOutside t ∧ s.SameOtherLines t n ∧
        let k := t.line n
        k.state = .disabling ∧ k.record = l.record ∧ k.control = l.control ∧
        k.progress = .disable l.reachedByDisable.length ∧ k.rate = l.rate ∧ k.rts = false ∧ k.rx.state = .off ∧
        k.rx.read = [] ∧ k.rx.idleTimer = none ∧ k.rx.held = l.rx.held ∧ k.rx.lost = l.rx.lost ∧
        k.rx.stray = l.rx.stray ∧
        (l.record.mode = .stream → k.rx.fifo = l.rx.fifo ∧ k.de = l.de ∧
          (∀ x ∈ k.tx.list, x.phase ≠ .listed) ∧ ∀ x ∈ k.filler.list, x.phase ≠ .listed) ∧
        (l.record.mode = .poll → ∀ x ∈ k.poll.list, x.phase ≠ .listed)) ∧
    (s.CommandAtHead n m ms .untaken → m.body = .disable → l.state = .enabled →
      let w : Line := { l with
        state := .disabling
        rts := false
        progress := .disable l.reachedByDisable.length
        rx := { l.rx with state := .off, read := [], sample := 0, idleTimer := none }
        poll := { l.poll with quiet := false } }
      ∃ k, exec (.disableLine n) s = .next (s.updateLine n k) ∧
        (l.record.mode = .poll → w.PollsEndedAs k .lineDisabled) ∧
        (l.record.mode = .stream → k = { w with tx := k.tx, filler := k.filler } ∧ l.tx.EndedAs k.tx .lineDisabled ∧
          l.filler.EndedAs k.filler .lineDisabled)) ∧
    ∀ count, s.CommandAtHead n m ms (.disable count) → l.state = .disabling →
      (l.tx.list = [] → l.filler.list = [] → l.poll.list = [] →
        ∃ t, exec (.disabledStep n) s = .next t ∧ s.CommandEnds t n m ms
          { l with
            state := .disabled
            rate := none
            rts := false
            de := false
            rx := { l.rx with fifo := [], held := false, armed := false }
            tx := { l.tx with txd := .mark } }
          { status := .ok, count := BitVec.ofNat 16 count, detail := 0 }) ∧
      (l.tx.list ≠ [] ∨ l.filler.list ≠ [] ∨ l.poll.list ≠ [] → exec (.disabledStep n) s = .next s)) ∧
  ∀ l : Line,
    (l.record.mode = .poll → EndedSlots l.poll.HasCurrent l.poll.list l.reachedByDisable) ∧
    (l.record.mode = .stream → ∃ sends buffers, EndedSlots l.tx.HasCurrent l.tx.list sends ∧
      EndedSlots l.filler.HasCurrent l.filler.list buffers ∧ l.reachedByDisable = sends ++ buffers)

/-- QUERY_LINE and REPORT_WRITE_END (02 R37, R38): in every line state the head takes a snapshot for the report writer and
clears nothing; when its write ends the command completes, OK with count 32 or BUS_ERROR with count 0, and the writer turns
to the next snapshot. -/
def Obligations.QueryAndReport : Prop :=
  ∀ (s : State) (n : LineNo) (m : Member LineCommand) (ms : List (Member LineCommand)),
    (∀ a, m.body = .query a → s.CommandAtHead n m ms .untaken →
      exec (.queryLine n) s = .next { s.setLine n { s.line n with progress := .query } with
        reports := s.reports ++
          [{ line := n, extent := { address := a, size := 32, bytes := reportBytes (s.line n) } }] }) ∧
    ∀ t, s.inTransfer t → t.kind = .reportWrite n → s.CommandAtHead n m ms .query →
      let told : State := { s.transferOver with reports := s.reports.tail }
      (∃ u, exec (.reportWriteEnd .ok) s = .next u ∧
        told.CommandEnds u n m ms (s.line n) { status := .ok, count := 32, detail := 0 }) ∧
      ∃ u, exec (.reportWriteEnd .busError) s = .next u ∧
        told.CommandEnds u n m ms (s.line n) { status := .busError, count := 0, detail := 0 }

/-- The fields of completions and line reports stand where 11 Tables 11.9 and 11.12 put them, and the detail of SEND,
POST_BUFFER, POLL and FLUSH_RX holds the fields of Table 11.10 at their bits, with the codes of 04 R77 and 06 Table 6.3, of
status with those of 01 Table 1.6 and of a report's states with those of Table 11.12; every other bit of a detail is 0
(R190). -/
def Obligations.CompletionAndReportFields : Prop :=
  let bits (d : Word) (at_ size : Nat) : Nat := (d.extractLsb' at_ size).toNat
  let reasons : List CloseReason := [.none, .full, .delimiter, .idleGap, .errorChar, .brk, .address, .flush]
  let outcomes : List PollOutcome :=
    [.none, .ok, .noStart, .addressMismatch, .framing, .collision, .overlong, .truncated]
  let results : List FlushResult := [.closedAtMark, .closedBeforeMark, .nothingClosed]
  let states : List TxState := [.idle, .brk, .load, .send, .gap, .ctsWait]
  (∀ (bytesRead : Nat) (breakDone : Bool) (endState : TxState), bytesRead ≤ 4096 →
    let d := sendDetail bytesRead breakDone endState
    bits d 0 13 = bytesRead ∧ d.getLsbD 15 = breakDone ∧ states[bits d 16 3]? = some endState ∧
    ∀ i, i = 13 ∨ i = 14 ∨ 19 ≤ i → d.getLsbD i = false) ∧
  (∀ (reason : CloseReason) (firstMarked : Bool) (errors dropped : Nat), errors ≤ 255 → dropped ≤ 255 →
    let d := bufferDetail reason firstMarked errors dropped
    reasons[bits d 0 3]? = some reason ∧ d.getLsbD 7 = firstMarked ∧ bits d 8 8 = errors ∧ bits d 16 8 = dropped ∧
    ∀ i, 3 ≤ i ∧ i ≤ 6 ∨ 24 ≤ i → d.getLsbD i = false) ∧
  (∀ (last : PollOutcome) (attempts : Nat) (seen : BitVec 7), attempts ≤ 8 →
    let d := pollDetail last attempts seen
    outcomes[bits d 0 3]? = some last ∧ bits d 4 4 = attempts ∧
    (∀ code, 1 ≤ code → code ≤ 7 → d.getLsbD (7 + code) = seen.getLsbD (code - 1)) ∧
    ∀ i, i = 3 ∨ 15 ≤ i → d.getLsbD i = false) ∧
  (∀ x : Status, [Status.ok, .badKind, .badLine, .badField, .badState, .wrongMode, .lineDisabled, .aborted, .stopped,
    .busError, .noReply, .replyError, .ctsTimeout][x.code]? = some x) ∧
  (∀ x : LineState, [LineState.disabled, .enabled, .disabling][x.code]? = some x) ∧
  (∀ x : Mode, [Mode.stream, .poll][x.code]? = some x) ∧
  (∀ x : RxState, [RxState.off, .hunt, .startCheck, .bits, .stopCheck, .waitMark][x.code]? = some x) ∧
  (∀ x : TxState, states[x.code]? = some x) ∧
  (∀ x : AttemptState, [AttemptState.none, .guard, .request, .release, .await, .reply, .settle][x.code]? = some x) ∧
  (∀ code o, outcomes[code]? = some o → ∀ i, o.asSeen.getLsbD i = decide (i + 1 = code)) ∧
  (∀ (result : FlushResult) (flushed : Word),
    let d := flushDetail result flushed
    results[bits d 0 2 - 1]? = some result ∧ 1 ≤ bits d 0 2 ∧ bits d 4 3 = bits flushed 0 3 ∧
    ∀ i, i = 2 ∨ i = 3 ∨ 7 ≤ i → d.getLsbD i = false) ∧
  (∀ (c : Completion) (lap : Bool),
    let b := completionBytes c lap
    b.length = 16 ∧ field b 0 2 = c.tag.toNat ∧ field b 2 1 = c.kind.toNat ∧ field b 3 1 = c.status.code ∧
    field b 4 1 % 16 = c.line.val ∧ field b 4 1 / 16 % 8 = c.sq.val ∧ field b 4 1 / 128 = lap.toNat ∧
    field b 5 1 = 0 ∧ field b 6 2 = c.count.toNat ∧ field b 8 4 = c.detail.toNat ∧ field b 12 4 = 0) ∧
  ∀ l : Line, l.WithinBounds → l.tx.list.length ≤ 64 → l.filler.list.length ≤ 64 → l.poll.list.length ≤ 64 →
    l.control.length ≤ 64 →
    let b := reportBytes l
    b.length = 32 ∧ field b 0 1 = l.record.configured.toNat ∧ field b 1 1 = l.state.code ∧
    field b 2 1 = l.record.mode.code ∧ field b 3 1 = l.rx.state.code ∧ field b 4 1 = l.rx.fifo.length ∧
    field b 5 1 = l.rx.held.toNat ∧ field b 6 2 = l.rx.lost ∧ field b 8 1 = l.rx.stray ∧
    field b 9 1 = l.event.pending.toNat ∧ field b 10 1 = l.event.queued.toNat ∧ field b 11 1 = l.tx.state.code ∧
    field b 12 1 = l.poll.attempt.code ∧ field b 13 1 = l.tx.list.length ∧ field b 14 1 = l.filler.list.length ∧
    field b 15 1 = l.poll.list.length ∧ field b 16 1 = l.control.length ∧ ∀ k, 17 ≤ k → k < 32 → field b k 1 = 0

/-- ABORT_LINE of an allowed class on an ENABLED line (02 R39, Table 2.10): reaching no record it completes OK with count 0;
otherwise it keeps the head until the completions of all records it ended have entered the backlog, with their number as its
count. Nothing stays LISTED on the lists of its class, and the other list is left alone: each LISTED record completes
ABORTED with count 0 and detail 0, and the current SEND, the head buffer or the current record of the poll engine ends
ABORTED as its unit stands; these, and no others, are the records it ended (a record already FINISHING, or whose end was
decided before, is not one of them) (05 R101, R102, 04 R83, 06 R123, R124), offered at that moment. (What this rests on is
in part the model's choice: when the step is taken, notes/assumptions/29.md; a character in shift, 14.md; an end decided
before, 15.md, and by a payload BUS_ERROR, 17.md; an outcome decided before, 18.md; the window in SETTLE, 27.md; the armed
flag, 30.md; the end state NONE of a SEND cut in GUARD, 32.md.) -/
def Obligations.AbortLineTaken : Prop :=
  (∀ (s : State) (n : LineNo) (m : Member LineCommand) (ms : List (Member LineCommand)) (c : AbortClass),
    s.CommandAtHead n m ms .untaken → m.body = .abort c →
    let l := s.line n
    let slots := l.reachedByAbort c
    l.state = .enabled → l.record.mode = .stream ∨ c = .all →
    (slots = [] → ∃ t, exec (.abortLine n) s = .next t ∧
      s.CommandEnds t n m ms l { status := .ok, count := 0, detail := 0 }) ∧
    (slots ≠ [] → ∃ t, exec (.abortLine n) s = .next t ∧ s.SameOutside t ∧ s.SameOtherLines t n ∧
      let k := t.line n
      k.record = l.record ∧ k.state = l.state ∧
      (l.record.mode = .poll → ∀ x ∈ k.poll.list, x.phase ≠ .listed) ∧
      (l.record.mode = .stream → c ≠ .rx → ∀ x ∈ k.tx.list, x.phase ≠ .listed) ∧
      (l.record.mode = .stream → c ≠ .tx → ∀ x ∈ k.filler.list, x.phase ≠ .listed) ∧
      (l.record.mode = .stream → c = .tx → k.filler = l.filler ∧ k.rx = l.rx) ∧
      (l.record.mode = .stream → c = .rx → k.tx = l.tx) ∧
      (¬ s.hasRoom → k.control = l.control ∧ k.progress = .abort slots slots.length)) ∧
    (slots ≠ [] →
      let w : Line := { l with progress := .abort slots slots.length }
      ∃ k, exec (.abortLine n) s = .next (s.updateLine n k) ∧
        (l.record.mode = .poll → w.PollsEndedAs k .aborted) ∧
        (l.record.mode = .stream → k = { w with tx := k.tx, filler := k.filler } ∧
          (c ≠ .rx → l.tx.EndedAs k.tx .aborted) ∧ (c = .rx → k.tx = l.tx) ∧
          (c ≠ .tx → l.filler.EndedAs k.filler .aborted) ∧ (c = .tx → k.filler = l.filler)))) ∧
  (∀ (l : Line) (i : Slot) (waitFor : List Slot) (count : Nat), l.progress = .abort waitFor count →
    (waitFor.erase i ≠ [] → l.recordEntered i = { l with progress := .abort (waitFor.erase i) count }) ∧
    (waitFor.erase i = [] → l.recordEntered i = { l with
      progress := .untaken
      control := finishHead { status := .ok, count := BitVec.ofNat 16 count, detail := 0 } l.control })) ∧
  ∀ (l : Line) (c : AbortClass),
    (l.record.mode = .poll → EndedSlots l.poll.HasCurrent l.poll.list (l.reachedByAbort c)) ∧
    (l.record.mode = .stream → ∃ sends buffers, EndedSlots l.tx.HasCurrent l.tx.list sends ∧
      EndedSlots l.filler.HasCurrent l.filler.list buffers ∧
      (c = .tx → l.reachedByAbort c = sends) ∧ (c = .rx → l.reachedByAbort c = buffers) ∧
      (c = .all → l.reachedByAbort c = sends ++ buffers))

/-- RESUME_RX (02 R40, 03 R56, R57, R59) completes OK with the lost count, clears it and HELD, and lets RTS follow the
staging count when HELD ends on a line with hardware flow. FLUSH_RX on an ENABLED STREAM line (04 R81): it marks the newest
staging entry, closes the head buffer when nothing is staged, reports nothing closed when the filler is IDLE, and waits
while a buffer is in CLOSING or OFFERING. A FLUSH_RX that marked an entry or closed a buffer completes OK when the
completion of the flushed buffer has entered the backlog (R82), with that buffer's count and close reason: CLOSED_AT_MARK if
it was closed when the FLUSH_RX was taken up or has taken the marked entry, which the record of the flush counts down to,
and CLOSED_BEFORE_MARK otherwise. A FLUSH_RX that waits is taken up as a completion enters and the next buffer becomes the
head: it marks the newest staging entry, closes that buffer at once with nothing staged, completes with nothing closed when
none is left, and waits on when that buffer is FINISHING. (When a waiting FLUSH_RX is taken up: notes/assumptions/20.md; a
STOP after the marked entry: 31.md.) -/
def Obligations.ResumeAndFlush : Prop :=
  (∀ (s : State) (n : LineNo) (i : Slot) (e : Entry) (r : Result), s.onOffer (.data n) = some (i, r) →
    s.entry i = some e → (s.line n).record.mode = .stream →
    s.enterBacklog (.data n) = (s.withAdmitted i e r).setLine n ((s.line n).bufferEntered i r)) ∧
  (∀ (l : Line) (i : Slot) (r : Result) (f : FlushRecord), l.progress = .flush → l.filler.flush = some f →
    let k := l.bufferEntered i r
    let result : FlushResult := if f.atMark = true then .closedAtMark else .closedBeforeMark
    (f.slot = i → k.filler.flush = none ∧ k.progress = .untaken ∧
      k.control = completedHead { status := .ok, count := r.count, detail := flushDetail result r.detail } l.control) ∧
    (f.slot ≠ i → k.filler.flush = some f ∧ k.progress = .flush ∧ k.control = l.control)) ∧
  (∀ (l w : Line) (i : Slot) (r : Result), l.BufferLeft w →
    (∀ f, l.progress = .flush → l.filler.flush = some f →
      let result : FlushResult := if f.atMark = true then .closedAtMark else .closedBeforeMark
      (f.slot = i → l.bufferEntered i r = { w with
        filler := { w.filler with flush := none }
        progress := .untaken
        control := completedHead { status := .ok, count := r.count, detail := flushDetail result r.detail } l.control }) ∧
      (f.slot ≠ i → l.bufferEntered i r = w)) ∧
    (l.progress = .flushHanded → (∀ f, l.filler.flush = some f → f.slot ≠ i) →
      (l.filler.list.tail = [] → l.bufferEntered i r = { w with
        progress := .untaken
        control := completedHead { status := .ok, count := 0, detail := 3 } l.control }) ∧
      ∀ b bs, l.filler.list.tail = b :: bs →
        (b.phase ≠ .listed → l.bufferEntered i r = w) ∧
        (b.phase = .listed → ∀ es x, l.rx.fifo = es ++ [x] → l.bufferEntered i r = { w with
          progress := .flush
          filler := { w.filler with flush := some { slot := b.slot, ahead := some es.length, atMark := false } }
          rx := { w.rx with fifo := es ++ [{ x with close := some .flush }], armed := false } }) ∧
        (b.phase = .listed → l.rx.fifo = [] → l.filler.outstanding = none → l.bufferEntered i r = { w with
          progress := .flush
          rx := { w.rx with armed := false }
          filler := { w.filler with
            state := .offering
            reason := .flush
            flush := some { slot := b.slot, ahead := none, atMark := true }
            list := completedHead { status := .ok, count := 0, detail := bufferDetail .flush false 0 0 } (b :: bs) } }))) ∧
  (∀ (f : FlushRecord) (i : Slot),
    (f.slot = i → f.ahead = some 0 → f.afterTake i = { f with atMark := true, ahead := none }) ∧
    (f.slot = i → ∀ k, f.ahead = some (k + 1) → f.afterTake i = { f with ahead := some k }) ∧
    (f.slot ≠ i ∨ f.ahead = none → f.afterTake i = f)) ∧
  ∀ (s : State) (n : LineNo) (m : Member LineCommand) (ms : List (Member LineCommand)),
    s.CommandAtHead n m ms .untaken →
    let l := s.line n
    let hardware := l.record.mode = .stream ∧ l.record.flow = .hardware
    (m.body = .resumeRx → ∃ t, exec (.resumeRx n) s = .next t ∧ s.CommandEnds t n m ms
      { l with
        rx := { l.rx with lost := 0, held := false }
        rts := if hardware ∧ l.state = .enabled ∧ l.rx.held = true ∧ l.rx.fifo.length ≤ 2 then true else l.rts }
      { status := .ok, count := BitVec.ofNat 16 l.rx.lost, detail := 0 }) ∧
    (m.body = .flushRx → l.state = .enabled → l.record.mode = .stream →
      (l.filler.state = .idle → ∃ t, exec (.flushRx n) s = .next t ∧
        s.CommandEnds t n m ms l { status := .ok, count := 0, detail := 3 }) ∧
      (l.filler.state = .closing ∨ l.filler.state = .offering →
        exec (.flushRx n) s = .next (s.setLine n { l with progress := .flushHanded })) ∧
      ∀ b bs, l.filler.list = b :: bs → l.filler.state = .filling →
        (∀ es e, l.rx.fifo = es ++ [e] → exec (.flushRx n) s = .next (s.setLine n
          { l with
            progress := .flush
            filler := { l.filler with flush := some { slot := b.slot, ahead := some es.length, atMark := false } }
            rx := { l.rx with fifo := es ++ [{ e with close := some .flush }], armed := false } })) ∧
        (l.rx.fifo = [] → b.phase = .active → l.filler.endStatus = none → .data n ∉ s.backlog.waiting →
          ∃ t, exec (.flushRx n) s = .next t ∧
          (l.filler.assembly = [] → l.filler.outstanding = none → s.Reports t (.data n) b.slot
            { status := .ok, count := BitVec.ofNat 16 l.filler.written,
              detail := bufferDetail .flush l.filler.firstMarked l.filler.errors l.filler.dropped }) ∧
          (l.filler.assembly ≠ [] ∨ l.filler.outstanding ≠ none →
            (t.line n).filler.state = .closing ∧ (t.line n).filler.reason = .flush ∧
            (t.line n).filler.list = l.filler.list ∧ (t.line n).progress = .flush ∧ t.backlog = s.backlog ∧
            (t.line n).filler.flush = some { slot := b.slot, ahead := none, atMark := true })))

/-! ### Receiver (chapter 3) -/

/-- The samples of a character (03 R45 to R47, R49): a falling edge in HUNT, the check of the start bit, each data or parity
bit, and the end of WAIT_MARK; none of them comes about in another receiver state.
(A sample that cannot come about changes nothing, the model's choice: notes/assumptions/3.md.) -/
def Obligations.ReceiverSamples : Prop :=
  ∀ (s : State) (n : LineNo), s.noNewOffers n →
    let l := s.line n
    let becomes (i : Instr) (rx : Receiver) := exec i s = .next (s.setLine n { l with rx := rx })
    (l.rx.state = .hunt → becomes (.fallingEdge n)
      { l.rx with state := .startCheck, read := [], sample := 1, rxd := false }) ∧
    (l.rx.state = .startCheck →
      becomes (.startCheckSample n true) { l.rx with state := .hunt, read := [], sample := 0, rxd := true } ∧
      becomes (.startCheckSample n false) { l.rx with state := .bits, read := [], sample := 8, rxd := false }) ∧
    (l.rx.state = .bits → ∀ level : Bool, becomes (.dataBitSample n level)
      { l.rx with
        read := l.rx.read ++ [level]
        sample := l.rx.sample + 16
        rxd := level
        state := if l.rx.read.length + 1 < l.record.dataBits.count + l.record.parity.count then .bits else .stopCheck }) ∧
    (l.rx.state = .waitMark → becomes (.waitMarkEnd n) { l.rx with state := .hunt, rxd := true }) ∧
    (l.rx.state ≠ .hunt → exec (.fallingEdge n) s = .next s) ∧
    (l.rx.state ≠ .startCheck → ∀ level : Bool, exec (.startCheckSample n level) s = .next s) ∧
    (l.rx.state ≠ .bits → ∀ level : Bool, exec (.dataBitSample n level) s = .next s) ∧
    (l.rx.state ≠ .waitMark → exec (.waitMarkEnd n) s = .next s) ∧
    (l.rx.state ≠ .stopCheck → ∀ level : Bool, exec (.characterComplete n level) s = .next s)

/-- A frame that goes out on TXD (02 R28, 05 R94) and comes in on an RXD of the same line record is received as sent (03 R47,
R48): no error, the low bits of the byte, the ninth bit as the address mark. And the class of any character received (03 Table
3.4): with the first stop bit 0 and every other bit 0 a break, of value 0 and without mark or error; else as read, with a
framing error if the first stop bit is 0, and a parity error if the line has parity and the number of 1s among the data and
parity bits is odd for EVEN, even for ODD. -/
def Obligations.FrameRoundTrip : Prop :=
  (∀ (r : LineRecord) (bits : List Bool) (stop : Bool),
    let e := classify r bits stop
    (e.brk = true ↔ stop = false ∧ ∀ b ∈ bits, b = false) ∧ e.close = none ∧
    (e.brk = true → e.value = 0 ∧ e.mark = false ∧ e.framing = false ∧ e.parity = false) ∧
    (e.brk = false →
      (e.framing = true ↔ stop = false) ∧
      (e.parity = true ↔ r.parity = .even ∧ bits.count true % 2 = 1 ∨ r.parity = .odd ∧ bits.count true % 2 = 0) ∧
      (e.mark = true ↔ r.dataBits = .nine ∧ bits[8]? = some true) ∧
      ∀ i, i < 8 → (e.value.getLsbD i = true ↔ i < r.dataBits.count ∧ bits[i]? = some true))) ∧
  ∀ (r : LineRecord) (value : Byte) (mark : Bool),
    let f := txFrame r value mark
    let bits := r.dataBits.count + r.parity.count
    f.length = 1 + bits + r.stopBits.count ∧ f.head? = some false ∧ (∀ b ∈ f.drop (1 + bits), b = true) ∧
    classify r ((f.drop 1).take bits) true =
      { value := if r.dataBits = .seven then value &&& 0x7F#8 else value
        mark := decide (r.dataBits = .nine) && mark
        framing := false
        parity := false
        brk := false
        close := none }

/-- CHARACTER_COMPLETE (03 R48 to R51, R53, R54, R59 to R61, R63, 06 R109, R116): the completed character is stray on a POLL line
with its window closed, lost on a HELD line or with 8 entries staged, and staged otherwise; RTS, the counts, the conditions
raised and the timers follow. The class of the character is what the statement of the frame round trip says of `classify`. -/
def Obligations.CharacterCompletes : Prop :=
  ∀ (s : State) (n : LineNo) (level : Bool), s.noNewOffers n →
    let l := s.line n
    let e := classify l.record l.rx.read level
    let poll := l.record.mode = .poll
    let stray := poll ∧ l.poll.window = false
    let overrun := ¬ stray ∧ l.rx.held = false ∧ 8 ≤ l.rx.fifo.length
    let lost := ¬ stray ∧ (l.rx.held = true ∨ 8 ≤ l.rx.fifo.length)
    let staged := ¬ stray ∧ ¬ lost
    let hardware := l.record.mode = .stream ∧ l.record.flow = .hardware
    let reports (k : Line) (i : Nat) (holds : Prop) :=
      k.event.pending.getLsbD i = true ↔
        l.event.pending.getLsbD i = true ∨ (holds ∧ l.record.enable.getLsbD i = true)
    l.rx.state = .stopCheck →
    ∃ k, exec (.characterComplete n level) s = .next (s.setLine n k) ∧
      k = { l with rx := k.rx, rts := k.rts, poll := { l.poll with quiet := k.poll.quiet, gapTimer := k.poll.gapTimer },
                   event := { l.event with pending := k.event.pending } } ∧
      k.rx.state = (if e.brk = true then .waitMark else .hunt) ∧ k.rx.read = [] ∧ k.rx.rxd = level ∧
      (staged → k.rx.fifo = l.rx.fifo ++ [e]) ∧ (¬ staged → k.rx.fifo = l.rx.fifo) ∧
      (k.rx.held = true ↔ l.rx.held = true ∨ overrun) ∧
      (lost → k.rx.lost = if l.rx.lost + 1 ≤ 65535 then l.rx.lost + 1 else 65535) ∧ (¬ lost → k.rx.lost = l.rx.lost) ∧
      (stray → k.rx.stray = if l.rx.stray + 1 ≤ 255 then l.rx.stray + 1 else 255) ∧
      (¬ stray → k.rx.stray = l.rx.stray) ∧
      k.rts = (if hardware ∧ (overrun ∨ staged ∧ 6 ≤ l.rx.fifo.length + 1) then false else l.rts) ∧
      (k.rx.armed = true ↔ l.rx.armed = true ∨ (staged ∧ ¬ poll ∧ l.record.idleGap ≠ 0)) ∧
      reports k 0 (e.brk = true) ∧ reports k 1 overrun ∧
      reports k 2 (staged ∧ ¬ poll ∧ l.filler.state ≠ .filling ∧ ∀ m ∈ l.filler.list, m.phase ≠ .listed) ∧
      reports k 3 stray ∧ reports k 4 (e.framing = true ∨ e.parity = true) ∧
      (¬ poll → k.poll = l.poll ∧ k.rx.idleTimer =
        if l.record.idleGap = 0 then l.rx.idleTimer else some (l.record.idleGap.toNat * 16 * l.record.frameLength)) ∧
      (poll → k.rx.idleTimer = l.rx.idleTimer ∧ (k.poll.quiet = true ↔ l.state = .enabled) ∧
        k.poll.gapTimer =
          if l.poll.window = true ∧ l.poll.attempt = .reply ∧ l.poll.tail = none then
            some (l.poll.headPoll.replyGap * 16 * l.record.frameLength)
          else l.poll.gapTimer)

/-- IDLE_GAP_TIMER_FIRE (03 R60 to R62, 04 R79): the timer stops and the armed flag is cleared; armed, it marks the newest
staging entry IDLE_GAP; with nothing staged it closes an open head buffer that holds a character. -/
def Obligations.IdleGapFires : Prop :=
  ∀ (s : State) (n : LineNo), s.noNewOffers n →
    let l := s.line n
    let stopped : Line := { l with rx := { l.rx with idleTimer := none, armed := false } }
    let becomes (k : Line) := exec (.idleGapTimerFire n) s = .next (s.setLine n k)
    (l.rx.idleTimer = none → exec (.idleGapTimerFire n) s = .next s) ∧
    (l.rx.idleTimer ≠ none →
      (l.rx.armed = false → becomes stopped) ∧
      (l.rx.armed = true →
        (∀ es e, l.rx.fifo = es ++ [e] →
          becomes { stopped with rx := { stopped.rx with fifo := es ++ [{ e with close := some .idleGap }] } }) ∧
        (l.rx.fifo = [] → l.filler.state ≠ .filling ∨ l.filler.fill = 0 → becomes stopped) ∧
        (l.rx.fifo = [] → l.filler.state = .filling → 1 ≤ l.filler.fill →
          exec (.idleGapTimerFire n) s = .next (s.updateLine n (stopped.closeBuffer .idleGap)))))

/-! ### Stream receive buffers (chapter 4) -/

/-- How a close of the head buffer goes on (04 R74, R75, R77): what is assembled is requested; with nothing left to write the
completion is composed with the written count and the details, and offered. -/
def Obligations.BufferCloses : Prop :=
  ∀ (s : State) (n : LineNo) (l : Line) (reason : CloseReason) (m : Member BufferBody) (ms : List (Member BufferBody)),
    s.noNewOffers n → l.record = (s.line n).record → l.control = (s.line n).control → l.tx = (s.line n).tx →
    l.poll = (s.line n).poll → l.record.mode = .stream → l.filler.list = m :: ms → m.phase = .active →
    l.filler.endStatus = none → (s.line n).filler.list = l.filler.list → .data n ∉ s.backlog.waiting →
    let closed : Line := { l with
      filler := { l.filler with state := .closing, reason }, rx := { l.rx with armed := l.rx.armed && !l.rx.fifo.isEmpty } }
    (l.filler.outstanding ≠ none → s.updateLine n (l.closeBuffer reason) = s.setLine n closed) ∧
    (l.filler.outstanding = none → l.filler.assembly ≠ [] →
      s.updateLine n (l.closeBuffer reason) = s.setLine n { closed with filler := { closed.filler with
        assembly := []
        outstanding := some
          { address := m.body.address + BitVec.ofNat 40 (l.filler.fill - l.filler.assembly.length)
            size := l.filler.assembly.length
            bytes := l.filler.assembly } } }) ∧
    (l.filler.outstanding = none → l.filler.assembly = [] →
      s.Reports (s.updateLine n (l.closeBuffer reason)) (.data n) m.slot
        { status := .ok, count := BitVec.ofNat 16 l.filler.written,
          detail := bufferDetail reason l.filler.firstMarked l.filler.errors l.filler.dropped })

/-- FILLER_TAKE_ENTRY (04 R68 to R75, Table 4.3): the entry at the staging head is stored, dropped or left, counted, and closes
the buffer, as its conditions and the error policy say: a break; an error under KEEP, DROP or CLOSE; an address on a buffer
that holds a character; else a character, which closes by DELIMITER, FULL or its mark. With none outstanding, the assembled
bytes are requested when the assembly can take no further byte, the FIFO holds no entry or the close is decided (R75): the
write has those bytes, at the address of the first of them, and the assembly begins anew; otherwise nothing is requested.
(The FLUSH mark of an address that closes the buffer: notes/assumptions/19.md.) -/
def Obligations.FillerTakesEntry : Prop :=
  (∀ (l : Line) (m : Member BufferBody) (ms : List (Member BufferBody)), l.filler.list = m :: ms →
    let f := l.filler
    let room := f.assembly.length < 16 ∧ (f.assembly = [] ∨ (m.body.address.toNat + f.fill) % 32 ≠ 0)
    let requests := f.outstanding = none ∧ f.assembly ≠ [] ∧ (¬ room ∨ l.rx.fifo = [] ∨ f.state = .closing)
    (¬ requests → l.requestBufferWrite = l) ∧
    (requests →
      l.requestBufferWrite = { l with filler := { f with
        assembly := []
        outstanding := some
          { address := m.body.address + BitVec.ofNat 40 (f.fill - f.assembly.length), size := f.assembly.length,
            bytes := f.assembly } } })) ∧
  ∀ (s : State) (n : LineNo) (m : Member BufferBody) (ms : List (Member BufferBody)) (e : Staged) (es : List Staged),
    s.noNewOffers n →
    let l := s.line n
    let f := l.filler
    let room := f.assembly.length < 16 ∧ (f.assembly = [] ∨ (m.body.address.toNat + f.fill) % 32 ≠ 0)
    let hardware := l.record.mode = .stream ∧ l.record.flow = .hardware
    let does (stored error dropped marked : Nat) (close : CloseReason) :=
      let k : Line := { l with
        rts := if hardware ∧ l.rx.held = false ∧ es.length ≤ 2 then true else l.rts
        rx := { l.rx with fifo := es }
        filler := { f with
          fill := f.fill + stored
          errors := saturate 255 (f.errors + error)
          dropped := saturate 255 (f.dropped + dropped)
          firstMarked := f.firstMarked || marked == 1
          assembly := f.assembly ++ List.replicate stored e.value
          flush := f.flush.map (FlushRecord.afterTake m.slot) } }
      (close = .none → exec (.fillerTakeEntry n) s = .next (s.setLine n k.requestBufferWrite)) ∧
      (close ≠ .none → exec (.fillerTakeEntry n) s = .next (s.updateLine n (k.closeBuffer close)))
    let byMark : CloseReason := match e.close with | none => .none | some .idleGap => .idleGap | some .flush => .flush
    let byMarkUnstored : CloseReason := if e.close = some .idleGap ∧ f.fill = 0 then .none else byMark
    let byCharacter : CloseReason :=
      if l.record.delimiter = some e.value then .delimiter else if m.body.capacity ≤ f.fill + 1 then .full else byMark
    let error := e.framing = true ∨ e.parity = true
    f.list = m :: ms → l.rx.fifo = e :: es →
    (f.state = .filling → room →
      (e.brk = true → does 0 0 0 0 (if 1 ≤ f.fill then .brk else byMarkUnstored)) ∧
      (e.brk = false → error → l.record.policy = .keep → does 1 1 0 0 byCharacter) ∧
      (e.brk = false → error → l.record.policy = .drop → does 0 0 1 0 byMarkUnstored) ∧
      (e.brk = false → error → l.record.policy = .close → does 1 1 0 0 .errorChar) ∧
      (e.brk = false → ¬ error → e.mark = true → 1 ≤ f.fill →
        exec (.fillerTakeEntry n) s = .next (s.updateLine n (l.closeBuffer .address))) ∧
      (e.brk = false → ¬ error → (e.mark = false ∨ f.fill = 0) → does 1 0 0 e.mark.toNat byCharacter)) ∧
    (f.state ≠ .filling ∨ ¬ room → exec (.fillerTakeEntry n) s = .next s)

/-- RX_BUFFER_WRITE_END (04 R75 to R77, R80, R83, R67): OK counts the bytes, requests the write of what is assembled if the
assembly can take no further byte, the FIFO holds no entry or the close is decided, and completes a closing buffer with
nothing left to write; BUS_ERROR completes the buffer at once, the bytes not written added to the lost count.
(A BUS_ERROR while an abort, STOP or DISABLE ends the buffer: notes/assumptions/16.md.) -/
def Obligations.BufferWriteEnds : Prop :=
  ∀ (s : State) (n : LineNo) (t : Transfer) (m : Member BufferBody) (ms : List (Member BufferBody)),
    s.inTransfer t → t.kind = .rxBufferWrite n → s.noNewOffers n →
    let l := s.line n
    let f := l.filler
    l.record.mode = .stream → f.list = m :: ms → m.phase = .active → .data n ∉ s.backlog.waiting →
    let written := f.written + t.extent.size
    let result (st : Status) (count : Nat) : Result :=
      { status := st, count := BitVec.ofNat 16 count, detail := bufferDetail f.reason f.firstMarked f.errors f.dropped }
    (f.state = .filling ∨ f.state = .closing ∧ f.assembly ≠ [] →
      exec (.rxBufferWriteEnd n .ok) s = .next (s.transferOver.setLine n
        (Line.requestBufferWrite { l with filler := { f with outstanding := none, written } }))) ∧
    (let room := f.assembly.length < 16 ∧ (f.assembly = [] ∨ (m.body.address.toNat + f.fill) % 32 ≠ 0)
      let becomes (x : Filler) := exec (.rxBufferWriteEnd n .ok) s = .next (s.transferOver.setLine n { l with filler := x })
      (f.state = .filling → f.assembly = [] ∨ (room ∧ l.rx.fifo ≠ []) → becomes { f with outstanding := none, written }) ∧
      (f.assembly ≠ [] → f.state = .filling ∧ (¬ room ∨ l.rx.fifo = []) ∨ f.state = .closing →
        becomes { f with
          written
          assembly := []
          outstanding := some
            { address := m.body.address + BitVec.ofNat 40 (f.fill - f.assembly.length), size := f.assembly.length,
              bytes := f.assembly } })) ∧
    (f.state = .closing → f.assembly = [] → ∃ u, exec (.rxBufferWriteEnd n .ok) s = .next u ∧
      s.Reports u (.data n) m.slot (result (f.endStatus.getD .ok) written)) ∧
    (f.state = .filling ∨ f.state = .closing → ∃ u, exec (.rxBufferWriteEnd n .busError) s = .next u ∧
      s.Reports u (.data n) m.slot (result (f.endStatus.getD .busError) f.written) ∧
      (u.line n).rx.lost = if l.rx.lost + (t.extent.size + f.assembly.length) ≤ 65535 then
        l.rx.lost + (t.extent.size + f.assembly.length) else 65535)

/-! ### Transmitter (chapter 5) -/

/-- TX_TAKE_RECORD (05 R88, R90) and the data reads (05 R92): an IDLE transmitter of a STREAM line takes the LISTED head of its TX
list and begins its break or loads. A read is requested with at least 8 bytes free in the staging and bytes unread; it asks
for the free bytes, the unread bytes or the bytes up to the next 32-byte boundary, whichever is least, and crosses none.
(The order of steps is the queue's: notes/assumptions/1.md, 3.md.) -/
def Obligations.SendTaken : Prop :=
  (∀ (s : State) (n : LineNo) (m : Member SendBody) (ms : List (Member SendBody)), s.noNewOffers n →
    let l := s.line n
    l.tx.list = m :: ms →
    let may := l.record.mode = .stream ∧ l.tx.state = .idle ∧ l.tx.job = none ∧ m.phase = .listed
    let none_ := m.body.breakBefore = 0
    (may → exec (.txTakeRecord n) s = .next (s.setLine n { l with tx := Transmitter.requestRead { l.tx with
      list := { m with phase := .active } :: ms
      job := some { send := m.body, station := none }
      state := if none_ then .load else .brk
      txd := if none_ then .mark else .breakThenMark (m.body.breakBefore * 16 * l.record.frameLength)
      readOffset := 0, sent := 0, bytesRead := 0, breakDone := false, staging := [], outstanding := none
      busError := false, endCause := none, ctsTimer := none, gapTimer := none } })) ∧
    (¬ may → exec (.txTakeRecord n) s = .next s)) ∧
  ∀ (t : Transmitter) (j : TxJob), t.job = some j → t.staging.length ≤ 16 →
    let offset := j.send.address.toNat + t.readOffset
    let reads := t.endCause = none ∧ t.busError = false ∧ t.outstanding = none ∧ t.readOffset < j.send.length ∧
      t.staging.length + 8 ≤ 16
    (¬ reads → t.requestRead = t) ∧
    (reads → ∃ size,
      t.requestRead = { t with
        outstanding := some { address := BitVec.ofNat 40 offset, size, bytes := [] }, readOffset := t.readOffset + size } ∧
      1 ≤ size ∧ t.staging.length + size ≤ 16 ∧ t.readOffset + size ≤ j.send.length ∧
      (offset + size - 1) / 32 = offset / 32 ∧
      (t.staging.length + size = 16 ∨ t.readOffset + size = j.send.length ∨ (offset + size) % 32 = 0))

/-- What the transmitter does at the start of a character (05 R91, R93, R94, R97, R98), after a break (BREAK_END), a gap
(GAP_END), a wait for CTS (CTS_ASSERT) or a character without a gap (TX_CHARACTER_SENT): with a byte staged its start bit
begins, or on a line with hardware flow and CTS deasserted it waits; with none staged it loads, or the record ends after a
bus error: on a POLL line the engine completes the SEND BUS_ERROR, DE is released and the receiver hunts (06 R113). After a
character with a gap it enters GAP. -/
def Obligations.CharactersGoOut : Prop :=
  ∀ (s : State) (n : LineNo) (j : TxJob), s.noNewOffers n →
    let l := s.line n
    l.tx.job = some j →
    let hardware := l.record.mode = .stream ∧ l.record.flow = .hardware
    let becomes (i : Instr) (x : Transmitter) := exec i s = .next (s.setLine n { l with tx := x })
    let starts (i : Instr) (x : Transmitter) :=
      (∀ c cs, x.staging = c :: cs → ¬ hardware ∨ x.cts = true → becomes i (Transmitter.requestRead { x with
        state := .send, txd := .frame (txFrame l.record c (j.send.markFirst && x.sent == 0)), staging := cs
        ctsTimer := none, gapTimer := none })) ∧
      (x.staging ≠ [] → hardware → x.cts = false → becomes i { x with
        state := .ctsWait, txd := .mark, gapTimer := none
        ctsTimer := if j.send.ctsLimit = 0 then none else some j.send.ctsLimit }) ∧
      (x.staging = [] → x.busError = false → becomes i { x with state := .load, txd := .mark, gapTimer := none }) ∧
      (∀ m ms, x.list = m :: ms → x.staging = [] → x.busError = true → l.record.mode = .stream →
        x.outstanding = none → .transmitter n ∉ s.backlog.waiting →
        ∃ t, exec i s = .next t ∧ s.Reports t (.transmitter n) m.slot
          { status := .busError, count := BitVec.ofNat 16 x.sent, detail := sendDetail x.bytesRead x.breakDone x.state }) ∧
      (∀ m ms, l.poll.list = m :: ms → m.phase = .active → (∃ b, m.body = .send b) → j.station = none → x.staging = [] →
        x.busError = true → l.record.mode = .poll → x.outstanding = none → l.poll.endStatus = none →
        l.poll.assembly = [] → l.poll.outstanding = none → .data n ∉ s.backlog.waiting →
        ∃ t, exec i s = .next t ∧ (t.line n).de = false ∧ (t.line n).tx.state = .idle ∧ (t.line n).tx.txd = .mark ∧
          (l.state = .enabled → (t.line n).rx.state = .hunt) ∧ s.Reports t (.data n) m.slot
          { status := .busError, count := BitVec.ofNat 16 x.sent, detail := sendDetail x.bytesRead x.breakDone x.state })
    (l.tx.state = .brk → j.station = none → ∀ cts : Bool, starts (.breakEnd n cts) { l.tx with breakDone := true, cts }) ∧
    (l.tx.state = .gap → j.station = none → ∀ cts : Bool, starts (.gapEnd n cts) { l.tx with cts }) ∧
    (l.tx.state = .ctsWait → j.station = none → starts (.ctsAssert n) { l.tx with cts := true }) ∧
    (l.tx.state = .send → l.tx.endCause = none → l.tx.sent + 1 < j.send.length + j.station.isSome.toNat → ∀ cts : Bool,
      let x := { l.tx with sent := l.tx.sent + 1, cts }
      (j.send.gap = 0 → starts (.txCharacterSent n cts) x) ∧
      (j.send.gap ≠ 0 → becomes (.txCharacterSent n cts) { x with
        state := .gap, txd := .mark, gapTimer := some (j.send.gap * 16) }))

/-- How a SEND of a STREAM line ends (05 R98, R99, R101, Table 5.4): OK after its last character, with the cause decided before
after the character in shift, CTS_TIMEOUT (or BUS_ERROR after a bus error) when the CTS wait timer expires. Its completion
has the characters sent, the bytes read, the break and the end state; with a read outstanding it waits for the read.
(The character in shift at an abort: notes/assumptions/14.md.) -/
def Obligations.SendEnds : Prop :=
  ∀ (s : State) (n : LineNo) (j : TxJob) (m : Member SendBody) (ms : List (Member SendBody)), s.noNewOffers n →
    let l := s.line n
    l.record.mode = .stream → l.tx.job = some j → j.station = none → l.tx.list = m :: ms → m.phase = .active →
    .transmitter n ∉ s.backlog.waiting →
    let ends (i : Instr) (x : Transmitter) (st : Status) (ts : TxState) :=
      (x.outstanding = none → ∃ t, exec i s = .next t ∧ (t.line n).tx.state = .idle ∧ (t.line n).tx.txd = .mark ∧
        (t.line n).tx.job = none ∧ (t.line n).tx.staging = [] ∧ s.Reports t (.transmitter n) m.slot
          { status := st, count := BitVec.ofNat 16 x.sent, detail := sendDetail x.bytesRead x.breakDone ts }) ∧
      (x.outstanding ≠ none → exec i s = .next (s.setLine n { l with tx := { x with
        state := .idle, txd := .mark, staging := [], ctsTimer := none, gapTimer := none, endCause := some (st, ts) } }))
    (l.tx.state = .send → ∀ cts : Bool,
      let x := { l.tx with sent := l.tx.sent + 1, cts }
      (l.tx.endCause = none → j.send.length ≤ l.tx.sent + 1 → ends (.txCharacterSent n cts) x .ok .send) ∧
      ∀ st ts, l.tx.endCause = some (st, ts) → ends (.txCharacterSent n cts) x st ts) ∧
    (l.tx.state = .ctsWait → l.tx.ctsTimer ≠ none →
      ends (.ctsWaitTimeout n) l.tx (if l.tx.busError = true then .busError else .ctsTimeout) .ctsWait) ∧
    (l.tx.state ≠ .ctsWait ∨ l.tx.ctsTimer = none → exec (.ctsWaitTimeout n) s = .next s)

/-- TX_DATA_READ_END (05 R92, R93, R99, 06 R111): OK, the bytes join the staging, the next read is requested as they do, and in
LOAD the next character begins after that. BUS_ERROR of a SEND: no further read, the bytes staged go out, in LOAD the record
ends (on a POLL line through the poll engine, 06 R113); of a poll request: the staging is emptied and the request ends after
the character in shift, or at once with none; DE is released and the record completes BUS_ERROR. A record whose end was
decided completes with its cause, and the bytes are dropped; while its character is still in shift, or its reply writes have
not ended, nothing is composed yet. (Reads that end after the decision: notes/assumptions/14.md, 17.md; an outcome decided
before an abort: 18.md.) -/
def Obligations.DataReadEnds : Prop :=
  ∀ (s : State) (n : LineNo) (t : Transfer) (j : TxJob) (bytes : List Byte) (cts : Bool), s.noNewOffers n →
    s.inTransfer t → t.kind = .txDataRead n ∨ t.kind = .payloadRead n →
    let l := s.line n
    l.tx.job = some j →
    let hardware := l.record.mode = .stream ∧ l.record.flow = .hardware
    let becomes (i : Instr) (x : Transmitter) := exec i s = .next (s.transferOver.setLine n { l with tx := x })
    let reports (i : Instr) (m : Member SendBody) (st : Status) (ts : TxState) :=
      ∃ u, exec i s = .next u ∧ s.Reports u (.transmitter n) m.slot
        { status := st, count := BitVec.ofNat 16 l.tx.sent, detail := sendDetail l.tx.bytesRead l.tx.breakDone ts }
    (l.tx.endCause = none → bytes.length = t.extent.size →
      let x := { l.tx with
        outstanding := none, staging := l.tx.staging ++ bytes, bytesRead := l.tx.bytesRead + bytes.length, cts }
      (l.tx.state ≠ .load → becomes (.txDataReadEnd n (.ok bytes) cts) x.requestRead) ∧
      (l.tx.state = .load → j.station = none ∨ l.tx.sent ≠ 0 → ∀ c cs, x.staging = c :: cs →
        (¬ hardware ∨ cts = true → becomes (.txDataReadEnd n (.ok bytes) cts) (Transmitter.requestRead { x.requestRead with
          state := .send, txd := .frame (txFrame l.record c (j.send.markFirst && l.tx.sent == 0)), staging := cs
          ctsTimer := none, gapTimer := none })) ∧
        (hardware → cts = false → becomes (.txDataReadEnd n (.ok bytes) cts) { x.requestRead with
          state := .ctsWait, txd := .mark, gapTimer := none
          ctsTimer := if j.send.ctsLimit = 0 then none else some j.send.ctsLimit }))) ∧
    (l.tx.endCause = none →
      let x := { l.tx with outstanding := none, cts, busError := true }
      (j.station = none → l.tx.state ≠ .load → becomes (.txDataReadEnd n .busError cts) x) ∧
      (∀ m ms, l.tx.list = m :: ms → j.station = none → l.tx.state = .load → l.record.mode = .stream →
        .transmitter n ∉ s.backlog.waiting → reports (.txDataReadEnd n .busError cts) m .busError .load) ∧
      (j.station ≠ none → l.tx.state = .send → becomes (.txDataReadEnd n .busError cts)
        { x with staging := [], endCause := some (.busError, .send) })) ∧
    (∀ m ms, l.record.mode = .poll → l.poll.list = m :: ms → m.phase = .active → .data n ∉ s.backlog.waiting →
      l.poll.assembly = [] → l.poll.outstanding = none →
      let p := l.poll
      let ends (i : Instr) (r : Result) := ∃ u, exec i s = .next u ∧ s.Reports u (.data n) m.slot r
      let released (i : Instr) := ∃ u, exec i s = .next u ∧ (u.line n).de = false ∧ (u.line n).tx.state = .idle ∧
        (u.line n).tx.txd = .mark ∧ (l.state = .enabled → (u.line n).rx.state = .hunt)
      let sendResult (st : Status) (ts : TxState) : Result :=
        { status := st, count := BitVec.ofNat 16 l.tx.sent, detail := sendDetail l.tx.bytesRead l.tx.breakDone ts }
      let pollResult (st : Status) (last : PollOutcome) (seen : BitVec 7) : Result :=
        { status := st, count := BitVec.ofNat 16 p.written, detail := pollDetail last p.attemptNumber seen }
      (l.tx.endCause = none → p.endStatus = none →
        ((∃ b, m.body = .send b) → j.station = none → l.tx.state = .load →
          released (.txDataReadEnd n .busError cts) ∧
          ends (.txDataReadEnd n .busError cts) (sendResult .busError .load)) ∧
        ((∃ b, m.body = .poll b) → j.station ≠ none → l.tx.state ≠ .send →
          released (.txDataReadEnd n .busError cts) ∧
          ends (.txDataReadEnd n .busError cts) (pollResult .busError .none p.seen))) ∧
      ∀ st ts, l.tx.endCause = some (st, ts) → p.attempt = .settle → ∀ e, e = .busError ∨ e = .ok bytes →
        bytes.length = t.extent.size → ∀ status, p.endStatus = some status →
        ((∃ b, m.body = .send b) → ends (.txDataReadEnd n e cts) (sendResult status ts)) ∧
        ((∃ b, m.body = .poll b) →
          (status = .busError → ends (.txDataReadEnd n e cts) (pollResult .busError .none p.seen)) ∧
          (status = .aborted ∨ status = .lineDisabled →
            ends (.txDataReadEnd n e cts) (pollResult status p.outcome (p.seen ||| p.outcome.asSeen))))) ∧
    (∀ st ts, l.tx.endCause = some (st, ts) →
      (l.record.mode = .stream ∧ l.tx.state ≠ .idle) ∨
        (l.record.mode = .poll ∧ (l.poll.attempt ≠ .settle ∨ l.poll.assembly ≠ [] ∨ l.poll.outstanding ≠ none)) →
      ∀ e, e = .busError ∨ e = .ok bytes → bytes.length = t.extent.size →
      becomes (.txDataReadEnd n e cts) { l.tx with outstanding := none, cts }) ∧
    ∀ st ts, l.tx.endCause = some (st, ts) → ∀ m ms, l.tx.list = m :: ms → l.tx.state = .idle →
      l.record.mode = .stream → .transmitter n ∉ s.backlog.waiting →
      (bytes.length = t.extent.size → reports (.txDataReadEnd n (.ok bytes) cts) m st ts) ∧
      reports (.txDataReadEnd n .busError cts) m st ts

/-! ### Polled operation (chapter 6) -/

/-- POLL_TAKE_RECORD, GUARD_END, the end of a request, AWAIT_ENTRY (06 R106, R108, R110 to R113): the engine takes the LISTED head
and waits for the guard time; DE is asserted, the receiver goes OFF, and the station address goes out with the ninth bit 1
(for a SEND its own characters); after the last character DE is released, the receiver hunts, the window opens and the
reply timeout runs; a sample later the engine is in AWAIT. -/
def Obligations.PollAttemptBegins : Prop :=
  ∀ (s : State) (n : LineNo) (m : Member PollWork) (ms : List (Member PollWork)), s.noNewOffers n →
    let l := s.line n
    l.poll.list = m :: ms →
    let may := l.record.mode = .poll ∧ l.poll.attempt = .none ∧ m.phase = .listed
    let fresh (j : TxJob) : Transmitter := { l.tx with
      job := some j, readOffset := 0, sent := 0, bytesRead := 0, breakDone := false, staging := [], outstanding := none
      busError := false, endCause := none, ctsTimer := none, gapTimer := none }
    let driven (x : Transmitter) : Line := { l with
      de := true
      rx := { l.rx with state := .off, read := [], sample := 0, idleTimer := none }
      poll := { l.poll with attempt := .request, guardSpan := none }
      tx := x.requestRead }
    (may → exec (.pollTakeRecord n) s = .next (s.setLine n { l with poll := { l.poll with
      list := { m with phase := .active } :: ms
      attempt := .guard
      attemptNumber := match m.body with | .poll _ => 1 | .send _ => 0
      outcome := .none, lastOutcome := .none, seen := 0, fill := 0, written := 0, endStatus := none
      guardSpan := some (l.record.guardTime.toNat * 16 * l.record.frameLength) } })) ∧
    (¬ may → exec (.pollTakeRecord n) s = .next s) ∧
    (∀ b, m.body = .poll b → l.poll.attempt = .guard →
      exec (.guardEnd n) s = .next (s.setLine n (driven { fresh
        { send := { address := b.payloadAddress, length := b.payloadLength, breakBefore := 0, gap := 0, markFirst := false,
                    ctsLimit := 0 }, station := some b.station } with
        state := .send, txd := .frame (txFrame l.record b.station true) }))) ∧
    (∀ b, m.body = .send b → l.poll.attempt = .guard →
      exec (.guardEnd n) s = .next (s.setLine n (driven { fresh { send := b, station := none } with
        state := if b.breakBefore = 0 then .load else .brk
        txd := if b.breakBefore = 0 then .mark else .breakThenMark (b.breakBefore * 16 * l.record.frameLength) }))) ∧
    (l.poll.attempt ≠ .guard → exec (.guardEnd n) s = .next s) ∧
    (∀ b, m.body = .poll b → ∀ j, l.tx.job = some j → ∀ cts : Bool, j.station ≠ none → l.tx.state = .send →
      l.tx.endCause = none → j.send.length + 1 ≤ l.tx.sent + 1 →
      exec (.txCharacterSent n cts) s = .next (s.setLine n { l with
        de := false
        rx := if l.state = .enabled then { l.rx with state := .hunt, read := [], sample := 0 } else l.rx
        tx := { l.tx with
          state := .idle, txd := .mark, cts, job := none, busError := false, staging := [], readOffset := 0, sent := 0
          bytesRead := 0, breakDone := false }
        poll := { l.poll with
          attempt := .release, window := true, fill := 0, written := 0, replyTimer := some b.timeout
          quiet := decide (l.state = .enabled) } })) ∧
    (l.poll.attempt = .release →
      exec (.awaitEntry n) s = .next (s.setLine n { l with poll := { l.poll with attempt := .await } })) ∧
    (l.poll.attempt ≠ .release → exec (.awaitEntry n) s = .next s)

/-- A reply judged (06 R114 to R119): POLL_TAKE_ENTRY in AWAIT and REPLY, REPLY_TIMEOUT, REPLY_GAP_FIRE. In AWAIT an entry
with an error, a break or no address mark is stray; the station's address starts the reply; another is ADDRESS_MISMATCH.
In REPLY an error is FRAMING, an address COLLISION, a byte past the capacity OVERLONG, any other byte is stored; with no room
in the write assembly no entry is taken. With none outstanding, the assembled bytes are requested when the assembly can take
no further byte, the FIFO holds no entry or the outcome is decided (R118): the write has those bytes, at the address of the
first of them in the reply buffer; otherwise nothing is requested. LENGTH ends OK at its last byte, or at the address with
capacity 0; a gap with every entry taken ends OK under GAP and TRUNCATED under LENGTH. In AWAIT and REPLY the reply window is
open (Table 6.2, R112, R119), which `State.WindowsOpen` says and every step keeps. -/
def Obligations.ReplyJudged : Prop :=
  (∀ (l : Line) (m : Member PollWork) (ms : List (Member PollWork)) (b : PollBody),
    let p := l.poll
    p.list = m :: ms → m.body = .poll b →
    let room := p.assembly.length < 16 ∧ (p.assembly = [] ∨ (b.replyAddress.toNat + p.fill) % 32 ≠ 0)
    let requests := p.outstanding = none ∧ p.assembly ≠ [] ∧ (¬ room ∨ l.rx.fifo = [] ∨ p.attempt = .settle)
    (¬ requests → l.requestReplyWrite = l) ∧
    (requests →
      l.requestReplyWrite = { l with poll := { p with
        assembly := []
        outstanding := some
          { address := b.replyAddress + BitVec.ofNat 40 (p.fill - p.assembly.length), size := p.assembly.length,
            bytes := p.assembly } } })) ∧
  ∀ (s : State) (n : LineNo) (m : Member PollWork) (ms : List (Member PollWork)) (b : PollBody), s.noNewOffers n →
    let l := s.line n
    let p := l.poll
    p.list = m :: ms → m.body = .poll b → (p.attempt = .await ∨ p.attempt = .reply → p.window = true) →
    let becomes (i : Instr) (k : Line) := exec i s = .next (s.setLine n k)
    let room := p.assembly.length < 16 ∧ (p.assembly = [] ∨ (b.replyAddress.toNat + p.fill) % 32 ≠ 0)
    let settled (p : PollEngine) (o : PollOutcome) : PollEngine :=
      { p with attempt := .settle, outcome := o, replyTimer := none, gapTimer := none, tail := none }
    let failed (p : PollEngine) (o : PollOutcome) : Line :=
      Line.requestReplyWrite { l with rx := { l.rx with fifo := [] }, poll := { settled p o with window := false } }
    (∀ e es, l.rx.fifo = e :: es → p.attempt = .await →
      (e.framing = true ∨ e.brk = true ∨ e.mark = false → becomes (.pollTakeEntry n) { l with
        rx := { l.rx with fifo := es, stray := if l.rx.stray + 1 ≤ 255 then l.rx.stray + 1 else 255 }
        event := { l.event with pending := l.event.pending ||| (l.record.enable &&& 0b01000#5) } }) ∧
      (e.framing = false → e.brk = false → e.mark = true →
        (e.value ≠ b.station → becomes (.pollTakeEntry n) (failed p .addressMismatch)) ∧
        (e.value = b.station → b.replyEnd = .gap ∨ b.replyCapacity ≠ 0 → becomes (.pollTakeEntry n) { l with
          rx := { l.rx with fifo := es }
          poll := { p with
            attempt := .reply, replyTimer := none, gapTimer := some (b.replyGap * 16 * l.record.frameLength) } }) ∧
        (e.value = b.station → b.replyEnd = .length → b.replyCapacity = 0 → p.assembly = [] → p.outstanding = none →
          becomes (.pollTakeEntry n)
            { l with rx := { l.rx with fifo := [] }, poll := { settled p .ok with window := false } }) ∧
        (e.value = b.station → b.replyEnd = .length → b.replyCapacity = 0 → p.assembly ≠ [] ∨ p.outstanding ≠ none →
          becomes (.pollTakeEntry n)
            (Line.requestReplyWrite { l with rx := { l.rx with fifo := es }, poll := settled p .ok })))) ∧
    (l.rx.fifo = [] ∨ (p.attempt ≠ .await ∧ p.attempt ≠ .reply) ∨ (p.attempt = .reply ∧ ¬ room) →
      exec (.pollTakeEntry n) s = .next s) ∧
    (∀ e es, l.rx.fifo = e :: es → p.attempt = .reply → room →
      let q : PollEngine := { p with tail := p.tail.map (· - 1) }
      let stored : PollEngine := { q with assembly := p.assembly ++ [e.value], fill := p.fill + 1 }
      (e.framing = true ∨ e.brk = true → becomes (.pollTakeEntry n) (failed p .framing)) ∧
      (e.framing = false → e.brk = false →
        (e.mark = true → becomes (.pollTakeEntry n) (failed p .collision)) ∧
        (e.mark = false →
          (b.replyEnd = .gap → p.fill = b.replyCapacity → becomes (.pollTakeEntry n) (failed p .overlong)) ∧
          (b.replyEnd = .length → b.replyCapacity ≤ p.fill + 1 → becomes (.pollTakeEntry n)
            (Line.requestReplyWrite { l with rx := { l.rx with fifo := es }, poll := settled stored .ok })) ∧
          (b.replyEnd = .gap ∧ p.fill ≠ b.replyCapacity ∨ b.replyEnd = .length ∧ p.fill + 1 < b.replyCapacity →
            (q.tail ≠ some 0 → becomes (.pollTakeEntry n)
              (Line.requestReplyWrite { l with rx := { l.rx with fifo := es }, poll := stored })) ∧
            (q.tail = some 0 → b.replyEnd = .gap → becomes (.pollTakeEntry n)
              (Line.requestReplyWrite { l with rx := { l.rx with fifo := es }, poll := settled stored .ok })) ∧
            (q.tail = some 0 → b.replyEnd = .length → becomes (.pollTakeEntry n) (failed stored .truncated)))))) ∧
    (p.attempt = .await → p.replyTimer ≠ none → becomes (.replyTimeout n) (failed p .noStart)) ∧
    (p.attempt ≠ .await ∨ p.replyTimer = none → exec (.replyTimeout n) s = .next s) ∧
    (p.attempt = .reply → p.gapTimer ≠ none →
      (l.rx.fifo ≠ [] → becomes (.replyGapFire n)
        { l with poll := { p with gapTimer := none, tail := some l.rx.fifo.length } }) ∧
      (l.rx.fifo = [] → b.replyEnd = .length → becomes (.replyGapFire n) (failed p .truncated)) ∧
      (l.rx.fifo = [] → b.replyEnd = .gap → p.assembly ≠ [] ∨ p.outstanding ≠ none → becomes (.replyGapFire n)
        (Line.requestReplyWrite { l with poll := settled p .ok })) ∧
      (l.rx.fifo = [] → b.replyEnd = .gap → p.assembly = [] → p.outstanding = none → becomes (.replyGapFire n)
        { l with poll := { settled p .ok with window := false } })) ∧
    (p.attempt ≠ .reply ∨ p.gapTimer = none → exec (.replyGapFire n) s = .next s)

/-- REPLY_WRITE_END and ATTEMPT_END (06 R118 to R123): a reply write counts its bytes and the next is requested if the
assembly can take no further byte, the FIFO holds no entry or the outcome is decided; the window of an OK reply closes after
the last; a BUS_ERROR ends the record at once (as the read ends, while a payload read is still outstanding), with the status
of an abort or disable that decided its end before: window closed, FIFO discarded, timers stopped, assembly emptied, lost
count and HELD as they were. An attempt that failed is retried while retries are left and no STOP was written; otherwise the
record ends OK, NO_REPLY, REPLY_ERROR or STOPPED, with the bytes written, the last outcome, the attempts used and the outcomes
seen. A SEND of a POLL line ends after its last character: DE is released, the receiver hunts, and the engine completes it
with the status and details of Chapter 5 (06 R113). A request or SEND whose end was decided while a character was in shift (06
R111, R123) ends with that character's last stop bit: DE is released, the receiver hunts, and the record completes with the
status decided first. (Aborts near the end of an attempt: notes/assumptions/14.md, 16.md, 17.md, 18.md, 27.md.) -/
def Obligations.PollRecordEnds : Prop :=
  (∀ (s : State) (n : LineNo) (j : TxJob) (m : Member PollWork) (ms : List (Member PollWork)) (cts : Bool),
    s.noNewOffers n →
    let l := s.line n
    l.record.mode = .poll → l.tx.job = some j → j.station = none → l.poll.list = m :: ms → m.phase = .active →
    (∃ b, m.body = .send b) → .data n ∉ s.backlog.waiting → l.tx.state = .send → l.tx.endCause = none →
    l.poll.endStatus = none → l.poll.assembly = [] → l.poll.outstanding = none → l.tx.outstanding = none →
    j.send.length ≤ l.tx.sent + 1 →
    ∃ t, exec (.txCharacterSent n cts) s = .next t ∧ (t.line n).de = false ∧ (t.line n).tx.state = .idle ∧
      (t.line n).tx.txd = .mark ∧ (t.line n).tx.job = none ∧ (l.state = .enabled → (t.line n).rx.state = .hunt) ∧
      s.Reports t (.data n) m.slot
        { status := .ok, count := BitVec.ofNat 16 (l.tx.sent + 1), detail := sendDetail l.tx.bytesRead l.tx.breakDone .send }) ∧
  (∀ (s : State) (n : LineNo) (j : TxJob) (m : Member PollWork) (ms : List (Member PollWork)) (cts : Bool) (st : Status)
      (ts : TxState), s.noNewOffers n →
    let l := s.line n
    let p := l.poll
    l.record.mode = .poll → l.tx.job = some j → p.list = m :: ms → m.phase = .active → .data n ∉ s.backlog.waiting →
    l.tx.state = .send → l.tx.endCause = some (st, ts) → p.assembly = [] → p.outstanding = none → l.tx.outstanding = none →
    let status := p.endStatus.getD st
    let ends (r : Result) := ∃ t, exec (.txCharacterSent n cts) s = .next t ∧ (t.line n).de = false ∧
      (t.line n).tx.state = .idle ∧ (t.line n).tx.txd = .mark ∧ (t.line n).tx.job = none ∧
      (l.state = .enabled → (t.line n).rx.state = .hunt) ∧ s.Reports t (.data n) m.slot r
    ((∃ b, m.body = .send b) → ends
      { status, count := BitVec.ofNat 16 (l.tx.sent + 1), detail := sendDetail l.tx.bytesRead l.tx.breakDone ts }) ∧
    ((∃ b, m.body = .poll b) →
      (status = .busError → ends
        { status, count := BitVec.ofNat 16 p.written, detail := pollDetail .none p.attemptNumber p.seen }) ∧
      (status = .aborted ∨ status = .lineDisabled → ends
        { status, count := BitVec.ofNat 16 p.written,
          detail := pollDetail p.outcome p.attemptNumber (p.seen ||| p.outcome.asSeen) }))) ∧
  ∀ (s : State) (n : LineNo) (m : Member PollWork) (ms : List (Member PollWork)) (b : PollBody), s.noNewOffers n →
    let l := s.line n
    let p := l.poll
    l.record.mode = .poll → p.list = m :: ms → m.phase = .active → m.body = .poll b →
    .data n ∉ s.backlog.waiting → p.attempt ≠ .none →
    let seen := p.seen ||| p.outcome.asSeen
    let reports (i : Instr) (st : Status) (count : Nat) (last : PollOutcome) (seen : BitVec 7) :=
      ∃ u, exec i s = .next u ∧ s.Reports u (.data n) m.slot
        { status := st, count := BitVec.ofNat 16 count, detail := pollDetail last p.attemptNumber seen }
    (∀ t, s.inTransfer t → t.kind = .replyWrite n →
      let written := p.written + t.extent.size
      (p.attempt ≠ .settle → exec (.replyWriteEnd n .ok) s = .next (s.transferOver.setLine n
        (Line.requestReplyWrite { l with poll := { p with outstanding := none, written } }))) ∧
      (p.attempt = .settle → p.endStatus = none ∨ l.tx.outstanding ≠ none → p.assembly = [] →
        (p.window = true → exec (.replyWriteEnd n .ok) s = .next (s.transferOver.setLine n
          { l with rx := { l.rx with fifo := [] }, poll := { p with outstanding := none, written, window := false } })) ∧
        (p.window = false → exec (.replyWriteEnd n .ok) s = .next (s.transferOver.setLine n
          { l with poll := { p with outstanding := none, written } }))) ∧
      (let room := p.assembly.length < 16 ∧ (p.assembly = [] ∨ (b.replyAddress.toNat + p.fill) % 32 ≠ 0)
        let becomes (x : PollEngine) := exec (.replyWriteEnd n .ok) s = .next (s.transferOver.setLine n { l with poll := x })
        (p.attempt ≠ .settle → p.assembly = [] ∨ (room ∧ l.rx.fifo ≠ []) → becomes { p with outstanding := none, written }) ∧
        (p.assembly ≠ [] → ¬ room ∨ l.rx.fifo = [] ∨ p.attempt = .settle →
          becomes { p with
            written
            assembly := []
            outstanding := some
              { address := b.replyAddress + BitVec.ofNat 40 (p.fill - p.assembly.length), size := p.assembly.length,
                bytes := p.assembly } })) ∧
      (p.attempt = .settle → p.assembly = [] → l.tx.outstanding = none →
        (p.endStatus = some .aborted → reports (.replyWriteEnd n .ok) .aborted written p.outcome seen) ∧
        (p.endStatus = some .lineDisabled → reports (.replyWriteEnd n .ok) .lineDisabled written p.outcome seen)) ∧
      (p.endStatus = none → l.tx.outstanding = none →
        reports (.replyWriteEnd n .busError) .busError p.written .none p.seen) ∧
      (l.tx.outstanding = none → ∀ st, p.endStatus = some st → st = .aborted ∨ st = .lineDisabled →
        reports (.replyWriteEnd n .busError) st p.written p.outcome seen) ∧
      ∃ u, exec (.replyWriteEnd n .busError) s = .next u ∧
        let k := u.line n
        k.poll.window = false ∧ k.rx.fifo = [] ∧ k.poll.replyTimer = none ∧ k.poll.gapTimer = none ∧ k.poll.assembly = [] ∧
        k.poll.outstanding = none ∧ k.rx.lost = l.rx.lost ∧ k.rx.held = l.rx.held ∧ k.state = l.state ∧
        k.event.pending = l.event.pending ∧
        (l.tx.outstanding ≠ none →
          k.poll.attempt = .settle ∧ k.poll.list = p.list ∧ k.poll.endStatus = some (p.endStatus.getD .busError))) ∧
    (p.attempt = .settle → p.endStatus = none → p.outcome ≠ .none → p.assembly = [] → p.outstanding = none →
      (p.outcome ≠ .ok → p.attemptNumber ≤ b.retries → p.stopFlag = false →
        exec (.attemptEnd n) s = .next (s.setLine n { l with poll := { p with
          lastOutcome := p.outcome, seen, attempt := .guard, attemptNumber := p.attemptNumber + 1, outcome := .none
          fill := 0, written := 0, tail := none
          guardSpan := some (l.record.guardTime.toNat * 16 * l.record.frameLength) } })) ∧
      (l.tx.outstanding = none →
        (p.outcome ≠ .ok → p.attemptNumber ≤ b.retries → p.stopFlag = true →
          reports (.attemptEnd n) .stopped p.written p.outcome seen) ∧
        (p.outcome = .ok → reports (.attemptEnd n) .ok p.written .ok seen) ∧
        (b.retries < p.attemptNumber → p.outcome = .noStart →
          reports (.attemptEnd n) .noReply p.written .noStart seen) ∧
        (b.retries < p.attemptNumber → p.outcome ≠ .ok → p.outcome ≠ .noStart →
          reports (.attemptEnd n) .replyError p.written p.outcome seen))) ∧
    (p.attempt ≠ .settle ∨ p.outcome = .none ∨ p.assembly ≠ [] ∨ p.outstanding ≠ none →
      exec (.attemptEnd n) s = .next s)
end

