-- ==== Sys2Proof/Laws/Bodies.lean ====
section
/-! SUPPORT. What the bodies of records are read as: every parser of 11 Table 11.8 accepts exactly the bytes that spell the body. -/

namespace Sys2Proof.Machine

theorem leNat_lt (bytes : List Byte) : leNat bytes < 256 ^ bytes.length := by
  induction bytes with
  | nil => simp [leNat]
  | cons b bs ih =>
    have hb := b.isLt
    simp only [leNat, List.foldr_cons, List.length_cons, Nat.pow_succ] at ih ⊢
    omega

/-- A field holds no more than its bytes can. -/
theorem field_lt (r : List Byte) (offset size : Nat) : field r offset size < 256 ^ size :=
  Nat.lt_of_lt_of_le (leNat_lt _) (Nat.pow_le_pow_right (by decide) (List.length_take_le _ _))

theorem reservedZero_iff (r : List Byte) (offset size : Nat) : reservedZero r offset size = true ↔ ZeroAt r offset size := by
  simp [reservedZero, ZeroAt]

theorem field_one_eq_zero (r : List Byte) (offset : Nat) : field r offset 1 = 0 ↔ ZeroAt r offset 1 := by
  unfold field ZeroAt
  rcases r.drop offset with _ | ⟨b, bs⟩
  · simp [leNat]
  · simp only [List.take_succ_cons, List.take_zero, leNat, List.foldr_cons, List.foldr_nil, List.mem_singleton, forall_eq]
    constructor
    · intro h; exact BitVec.eq_of_toNat_eq (by simpa using h)
    · rintro rfl; rfl

theorem areaAt_iff (r : List Byte) (offset length : Nat) (a : Addr) :
    areaAt r offset length = some a ↔ a.toNat = field r offset 8 ∧ a.toNat + length ≤ 2 ^ 40 := by
  have ht : Config.addressTop = 2 ^ 40 := rfl
  unfold areaAt
  simp only [ht]
  constructor
  · intro h
    split at h
    · next hc =>
      cases h
      simp only [BitVec.toNat_ofNat]
      rw [Nat.mod_eq_of_lt hc.1]
      exact ⟨rfl, hc.2⟩
    · cases h
  · rintro ⟨h1, h2⟩
    rw [if_pos ⟨h1 ▸ a.isLt, h1 ▸ h2⟩, ← h1]
    simp

theorem sendBody_iff (r : List Byte) (b : SendBody) : sendBody r = some b ↔ SendFits r b := by
  have h20 := field_lt r 20 1
  simp only [sendBody, Option.bind_eq_bind, Option.bind_eq_some_iff, areaAt_iff]
  constructor
  · rintro ⟨a, ⟨h1, h2⟩, h⟩
    split at h
    · next hc =>
      cases h
      have : field r 20 1 = 0 ∨ field r 20 1 = 1 := by omega
      exact ⟨h1, ⟨rfl, hc.1, hc.2.1⟩, h2, ⟨rfl, hc.2.2.1⟩, rfl, by rcases this with h | h <;> simp [h], rfl,
        (reservedZero_iff ..).mp hc.2.2.2.2⟩
    · cases h
  · rintro ⟨h1, ⟨h2, h2', h2''⟩, h3, ⟨h4, h4'⟩, h5, h6, h7, h8⟩
    refine ⟨b.address, ⟨h1, h2 ▸ h3⟩, ?_⟩
    rw [if_pos ⟨by omega, by omega, by omega, by cases hm : b.markFirst <;> simp [h6, hm], (reservedZero_iff ..).mpr h8⟩]
    cases b with | mk a l br g m c =>
    simp_all

theorem bufferBody_iff (r : List Byte) (b : BufferBody) : bufferBody r = some b ↔ BufferFits r b := by
  simp only [bufferBody, Option.bind_eq_bind, Option.bind_eq_some_iff, areaAt_iff]
  constructor
  · rintro ⟨a, ⟨h1, h2⟩, h⟩
    split at h
    · next hc =>
      cases h
      exact ⟨h1, ⟨rfl, hc.1, hc.2.1⟩, h2, (reservedZero_iff ..).mp hc.2.2⟩
    · cases h
  · rintro ⟨h1, ⟨h2, h2', h2''⟩, h3, h8⟩
    refine ⟨b.address, ⟨h1, h2 ▸ h3⟩, ?_⟩
    rw [if_pos ⟨by omega, by omega, (reservedZero_iff ..).mpr h8⟩]
    cases b; simp_all

theorem pollBody_iff (r : List Byte) (b : PollBody) : pollBody r = some b ↔ PollFits r b := by
  have h8 := field_lt r 8 1
  simp only [pollBody, Option.bind_eq_bind, Option.bind_eq_some_iff, areaAt_iff]
  constructor
  · rintro ⟨e, he, pa, ⟨h1, h2⟩, ra, ⟨h3, h4⟩, h⟩
    split at h
    · next hc =>
      cases h
      obtain ⟨c1, c2, c3, c4, c5, c6⟩ := hc
      refine ⟨by simp; omega, ⟨?_, c2⟩, ⟨rfl, c5⟩, ⟨rfl, c6⟩, ⟨rfl, c3⟩, ⟨rfl, c4⟩, ⟨h1, h2⟩, ⟨h3, h4⟩⟩
      generalize hq : field r 9 1 = q at *
      have hk : q / 16 % 4 = 1 ∧ e = .length ∨ q / 16 % 4 = 2 ∧ e = .gap := by
        generalize q / 16 % 4 = x at he
        unfold ReplyEnd.ofCode at he
        split at he <;> simp_all
      rcases hk with ⟨hk, rfl⟩ | ⟨hk, rfl⟩ <;> simp <;> omega
    · cases h
  · rintro ⟨h1, ⟨h2, h2'⟩, ⟨h3, h3'⟩, ⟨h4, h4'⟩, ⟨h5, h5'⟩, ⟨h6, h6'⟩, ⟨h7, h7'⟩, ⟨h9, h9'⟩⟩
    have hb : ReplyEnd.ofCode (field r 9 1 / 16 % 4) = some b.replyEnd ∧ field r 9 1 < 64 ∧ field r 9 1 % 16 = b.retries := by
      cases he : b.replyEnd <;> simp [he] at h2 <;> simp only [h2]
      · rw [show (b.retries + 16) / 16 % 4 = 1 by omega]; exact ⟨rfl, by omega, by omega⟩
      · rw [show (b.retries + 32) / 16 % 4 = 2 by omega]; exact ⟨rfl, by omega, by omega⟩
    refine ⟨_, hb.1, _, ⟨h7, h5 ▸ h7'⟩, _, ⟨h9, h6 ▸ h9'⟩, ?_⟩
    rw [if_pos ⟨by omega, by omega, by omega, by omega, by omega, by omega⟩]
    cases b
    simp_all only
    simp [← h1]

theorem queryBody_iff (r : List Byte) (a : Addr) :
    queryBody r = some a ↔ a.toNat = field r 8 8 ∧ field r 8 8 % 32 = 0 ∧ ZeroAt r 16 16 := by
  have ht : Config.addressTop = 2 ^ 40 := rfl
  unfold queryBody
  simp only [ht]
  constructor
  · intro h
    split at h
    · next hc =>
      cases h
      simp only [BitVec.toNat_ofNat]
      exact ⟨Nat.mod_eq_of_lt hc.1, hc.2.1, (reservedZero_iff ..).mp hc.2.2⟩
    · cases h
  · rintro ⟨h1, h2, h3⟩
    rw [if_pos ⟨h1 ▸ a.isLt, h2, (reservedZero_iff ..).mpr h3⟩, ← h1]
    simp

theorem abortBody_iff (r : List Byte) (c : AbortClass) :
    abortBody r = some c ↔
      (c = .tx ∧ field r 8 1 = 1 ∨ c = .rx ∧ field r 8 1 = 2 ∨ c = .all ∧ field r 8 1 = 3) ∧ ZeroAt r 9 23 := by
  simp only [abortBody, reservedZero_iff, Option.ite_none_right_eq_some, and_comm (b := ZeroAt r 9 23)]
  refine and_congr_right fun _ => ?_
  generalize field r 8 1 = q
  unfold AbortClass.ofCode
  split <;> cases c <;> simp_all

theorem Mode.ofCode_iff (q : Nat) (m : Mode) : Mode.ofCode q = some m ↔ m.code = q := by
  unfold Mode.ofCode; split <;> cases m <;> simp_all [Mode.code] <;> omega

theorem DataBits.ofCode_iff (q : Nat) (m : DataBits) : DataBits.ofCode q = some m ↔ m.count = q := by
  unfold DataBits.ofCode; split <;> cases m <;> simp_all [DataBits.count] <;> omega

theorem StopBits.ofCode_iff (q : Nat) (m : StopBits) : StopBits.ofCode q = some m ↔ m.count = q := by
  unfold StopBits.ofCode; split <;> cases m <;> simp_all [StopBits.count] <;> omega

theorem Parity.ofCode_iff (q : Nat) (m : Parity) :
    Parity.ofCode q = some m ↔ m = .off ∧ q = 0 ∨ m = .even ∧ q = 1 ∨ m = .odd ∧ q = 2 := by
  unfold Parity.ofCode; split <;> cases m <;> simp_all

theorem Flow.ofCode_iff (q : Nat) (m : Flow) : Flow.ofCode q = some m ↔ m = .off ∧ q = 0 ∨ m = .hardware ∧ q = 1 := by
  unfold Flow.ofCode; split <;> cases m <;> simp_all

theorem ErrorPolicy.ofCode_iff (q : Nat) (m : ErrorPolicy) :
    ErrorPolicy.ofCode q = some m ↔ m = .keep ∧ q = 0 ∨ m = .drop ∧ q = 1 ∨ m = .close ∧ q = 2 := by
  unfold ErrorPolicy.ofCode; split <;> cases m <;> simp_all

/-- What `configurationFits` asks of a line record (02 R26). -/
theorem configurationFits_iff (block : Option Block) (c : LineRecord) :
    configurationFits block c = true ↔
      (c.mode = .poll → c.dataBits = .nine ∧ c.flow = .off ∧ c.idleGap = 0 ∧ c.policy = .keep ∧ c.delimiter = none) ∧
      (c.mode = .stream → c.guardTime = 0) ∧ (c.dataBits = .nine → c.parity = .off ∧ c.delimiter = none) ∧
      (c.dataBits = .seven → ∀ d, c.delimiter = some d → d.toNat ≤ 0x7F) ∧ cqSize block c.eventCq ≠ 0 := by
  unfold configurationFits
  cases c.mode <;> cases c.dataBits <;> cases c.delimiter <;> simp [and_assoc]

theorem delimiterField_iff (r : List Byte) (d : Option Byte) :
    delimiterField r = some d ↔
      d = none ∧ field r 17 1 = 0 ∧ field r 18 1 = 0 ∨ d = some (BitVec.ofNat 8 (field r 18 1)) ∧ field r 17 1 = 1 := by
  rw [field_one_eq_zero r 18, ← reservedZero_iff, delimiterField]
  generalize field r 17 1 = q, reservedZero r 18 1 = z, BitVec.ofNat 8 (field r 18 1) = v
  match q with
  | 0 => cases z <;> simp [eq_comm]
  | 1 => simp [eq_comm]
  | q + 2 => simp

theorem configureBody_iff (block : Option Block) (r : List Byte) (c : LineRecord) :
    configureBody block r = some c ↔ ConfigureFits block r c := by
  have h18' := field_lt r 18 1
  have h16' := field_lt r 16 1
  simp only [configureBody, Option.bind_eq_bind, Option.bind_eq_some_iff, delimiterField_iff, Mode.ofCode_iff, DataBits.ofCode_iff,
    StopBits.ofCode_iff, Parity.ofCode_iff, Flow.ofCode_iff, ErrorPolicy.ofCode_iff, Option.ite_none_right_eq_some,
    configurationFits_iff, reservedZero_iff]
  constructor
  · rintro ⟨mo, h1, da, h2, pa, h3, st, h4, fl, h5, po, h6, de, h7, ⟨g1, g2, g3, g4, g5, c1, c2, c3, c4, c5⟩, h⟩
    cases h
    exact ⟨rfl, h1, h2, h3, h4, by simp; omega, h5, h6, by simp; omega, h7, by simp; omega, by simp [Fin.ofNat]; omega,
      by simp; omega, g5, c1, c2, c3, c4, c5⟩
  · rintro ⟨k0, k1, k2, k3, k4, k5, k6, k7, k8, k9, k10, k11, k12, k13, k14, k15, k16, k17, k18⟩
    have e5 := c.divisor.isLt
    have e10 := c.guardTime.isLt
    have e11 := c.eventCq.isLt
    have e12 := c.enable.isLt
    have e : c = { configured := true, mode := c.mode, divisor := BitVec.ofNat 12 (field r 12 2), dataBits := c.dataBits,
                   parity := c.parity, stopBits := c.stopBits, flow := c.flow, idleGap := BitVec.ofNat 8 (field r 16 1),
                   delimiter := c.delimiter, policy := c.policy, guardTime := BitVec.ofNat 4 (field r 19 1),
                   eventCq := Fin.ofNat 4 (field r 20 1), enable := BitVec.ofNat 5 (field r 21 1) } := by
      rw [← k5, ← k8, ← k10, ← k11, ← k12, Fin.ofNat_val_eq_self, ← k0]
      simp only [BitVec.ofNat_toNat, BitVec.setWidth_eq]
    refine ⟨_, k1, _, k2, _, k3, _, k4, _, k6, _, k7, _, k9, ⟨by omega, by omega, by omega, by omega, k13, ?_⟩, congrArg some e.symm⟩
    simp only [← k8, ← k10, ← k11, BitVec.ofNat_toNat, BitVec.setWidth_eq, Fin.ofNat_val_eq_self]
    exact ⟨k14, k15, k16, k17, k18⟩

/-- The body that a record of kind `k` is read as is the one its bytes spell (11 Table 11.8). -/
theorem parseBody_iff (block : Option Block) (k : Kind) (r : List Byte) (b : Body) :
    parseBody block k r = some b ↔ BodyFits block r k b := by
  cases k <;> simp only [parseBody, BodyFits, Option.map_eq_some_iff, emptyBody, Option.ite_none_right_eq_some,
    reservedZero_iff, configureBody_iff, queryBody_iff, abortBody_iff, sendBody_iff, bufferBody_iff, pollBody_iff,
    Option.some.injEq, eq_comm (b := b)]

end Sys2Proof.Machine
end

