-- ==== Sys2Proof/Laws/State.lean ====
section
/-! SUPPORT. One lemma per field and update of the state and of a line: what each update leaves as it was, and what it
puts there. All hold by unfolding the update once. -/

namespace Sys2Proof.Machine

/-! #### State.setLine -/

@[simp] theorem State.setLine_ctl (s : State) (n : LineNo) (l : Line) : (s.setLine n l).ctl = s.ctl := rfl
@[simp] theorem State.setLine_block (s : State) (n : LineNo) (l : Line) : (s.setLine n l).block = s.block := rfl
@[simp] theorem State.setLine_fetcher (s : State) (n : LineNo) (l : Line) : (s.setLine n l).fetcher = s.fetcher := rfl
@[simp] theorem State.setLine_table (s : State) (n : LineNo) (l : Line) : (s.setLine n l).table = s.table := rfl
@[simp] theorem State.setLine_dispatched (s : State) (n : LineNo) (l : Line) :
    (s.setLine n l).dispatched = s.dispatched := rfl
@[simp] theorem State.setLine_fences (s : State) (n : LineNo) (l : Line) : (s.setLine n l).fences = s.fences := rfl
@[simp] theorem State.setLine_fencesDone (s : State) (n : LineNo) (l : Line) :
    (s.setLine n l).fencesDone = s.fencesDone := rfl
@[simp] theorem State.setLine_backlog (s : State) (n : LineNo) (l : Line) : (s.setLine n l).backlog = s.backlog := rfl
@[simp] theorem State.setLine_writer (s : State) (n : LineNo) (l : Line) : (s.setLine n l).writer = s.writer := rfl
@[simp] theorem State.setLine_notice (s : State) (n : LineNo) (l : Line) : (s.setLine n l).notice = s.notice := rfl
@[simp] theorem State.setLine_reports (s : State) (n : LineNo) (l : Line) : (s.setLine n l).reports = s.reports := rfl
@[simp] theorem State.setLine_port (s : State) (n : LineNo) (l : Line) : (s.setLine n l).port = s.port := rfl
@[simp] theorem State.setLine_lines (s : State) (n : LineNo) (l : Line) :
    (s.setLine n l).lines = s.lines.set n l := rfl
@[simp] theorem State.setLine_offersMade (s : State) (n : LineNo) (l : Line) :
    (s.setLine n l).offersMade = s.offersMade := rfl
@[simp] theorem State.setLine_pending (s : State) (n : LineNo) (l : Line) : (s.setLine n l).pending = s.pending := rfl

/-! #### State.setEntry -/

@[simp] theorem State.setEntry_ctl (s : State) (i : Slot) (e : Option Entry) : (s.setEntry i e).ctl = s.ctl := rfl
@[simp] theorem State.setEntry_block (s : State) (i : Slot) (e : Option Entry) :
    (s.setEntry i e).block = s.block := rfl
@[simp] theorem State.setEntry_fetcher (s : State) (i : Slot) (e : Option Entry) :
    (s.setEntry i e).fetcher = s.fetcher := rfl
@[simp] theorem State.setEntry_table (s : State) (i : Slot) (e : Option Entry) :
    (s.setEntry i e).table = s.table.set i e := rfl
@[simp] theorem State.setEntry_dispatched (s : State) (i : Slot) (e : Option Entry) :
    (s.setEntry i e).dispatched = s.dispatched := rfl
@[simp] theorem State.setEntry_fences (s : State) (i : Slot) (e : Option Entry) :
    (s.setEntry i e).fences = s.fences := rfl
@[simp] theorem State.setEntry_fencesDone (s : State) (i : Slot) (e : Option Entry) :
    (s.setEntry i e).fencesDone = s.fencesDone := rfl
@[simp] theorem State.setEntry_backlog (s : State) (i : Slot) (e : Option Entry) :
    (s.setEntry i e).backlog = s.backlog := rfl
@[simp] theorem State.setEntry_writer (s : State) (i : Slot) (e : Option Entry) :
    (s.setEntry i e).writer = s.writer := rfl
@[simp] theorem State.setEntry_notice (s : State) (i : Slot) (e : Option Entry) :
    (s.setEntry i e).notice = s.notice := rfl
@[simp] theorem State.setEntry_reports (s : State) (i : Slot) (e : Option Entry) :
    (s.setEntry i e).reports = s.reports := rfl
@[simp] theorem State.setEntry_port (s : State) (i : Slot) (e : Option Entry) : (s.setEntry i e).port = s.port := rfl
@[simp] theorem State.setEntry_lines (s : State) (i : Slot) (e : Option Entry) :
    (s.setEntry i e).lines = s.lines := rfl
@[simp] theorem State.setEntry_offersMade (s : State) (i : Slot) (e : Option Entry) :
    (s.setEntry i e).offersMade = s.offersMade := rfl
@[simp] theorem State.setEntry_pending (s : State) (i : Slot) (e : Option Entry) :
    (s.setEntry i e).pending = s.pending := rfl

/-! #### State.leaveWaitSets -/

@[simp] theorem State.leaveWaitSets_ctl (s : State) (i : Slot) : (s.leaveWaitSets i).ctl = s.ctl := rfl
@[simp] theorem State.leaveWaitSets_block (s : State) (i : Slot) : (s.leaveWaitSets i).block = s.block := rfl
@[simp] theorem State.leaveWaitSets_fetcher (s : State) (i : Slot) : (s.leaveWaitSets i).fetcher = s.fetcher := rfl
@[simp] theorem State.leaveWaitSets_table (s : State) (i : Slot) : (s.leaveWaitSets i).table = s.table := rfl
@[simp] theorem State.leaveWaitSets_dispatched (s : State) (i : Slot) :
    (s.leaveWaitSets i).dispatched = s.dispatched := rfl
@[simp] theorem State.leaveWaitSets_fences (s : State) (i : Slot) :
    (s.leaveWaitSets i).fences = s.fences.map fun f => f.map fun f => { f with waitSet := f.waitSet.erase i } := rfl
@[simp] theorem State.leaveWaitSets_fencesDone (s : State) (i : Slot) :
    (s.leaveWaitSets i).fencesDone = s.fencesDone := rfl
@[simp] theorem State.leaveWaitSets_backlog (s : State) (i : Slot) : (s.leaveWaitSets i).backlog = s.backlog := rfl
@[simp] theorem State.leaveWaitSets_writer (s : State) (i : Slot) : (s.leaveWaitSets i).writer = s.writer := rfl
@[simp] theorem State.leaveWaitSets_notice (s : State) (i : Slot) : (s.leaveWaitSets i).notice = s.notice := rfl
@[simp] theorem State.leaveWaitSets_reports (s : State) (i : Slot) : (s.leaveWaitSets i).reports = s.reports := rfl
@[simp] theorem State.leaveWaitSets_port (s : State) (i : Slot) : (s.leaveWaitSets i).port = s.port := rfl
@[simp] theorem State.leaveWaitSets_lines (s : State) (i : Slot) : (s.leaveWaitSets i).lines = s.lines := rfl
@[simp] theorem State.leaveWaitSets_offersMade (s : State) (i : Slot) :
    (s.leaveWaitSets i).offersMade = s.offersMade := rfl
@[simp] theorem State.leaveWaitSets_pending (s : State) (i : Slot) : (s.leaveWaitSets i).pending = s.pending := rfl

/-! #### State.completeAtOnce -/

@[simp] theorem State.completeAtOnce_ctl (s : State) (i : Slot) (st : Status) :
    (s.completeAtOnce i st).ctl = s.ctl := rfl
@[simp] theorem State.completeAtOnce_block (s : State) (i : Slot) (st : Status) :
    (s.completeAtOnce i st).block = s.block := rfl
@[simp] theorem State.completeAtOnce_fetcher (s : State) (i : Slot) (st : Status) :
    (s.completeAtOnce i st).fetcher = s.fetcher := rfl
@[simp] theorem State.completeAtOnce_table (s : State) (i : Slot) (st : Status) :
    (s.completeAtOnce i st).table = s.table := rfl
@[simp] theorem State.completeAtOnce_dispatched (s : State) (i : Slot) (st : Status) :
    (s.completeAtOnce i st).dispatched = s.dispatched ++ [(i, { status := st, count := 0, detail := 0 })] := rfl
@[simp] theorem State.completeAtOnce_fences (s : State) (i : Slot) (st : Status) :
    (s.completeAtOnce i st).fences = s.fences := rfl
@[simp] theorem State.completeAtOnce_fencesDone (s : State) (i : Slot) (st : Status) :
    (s.completeAtOnce i st).fencesDone = s.fencesDone := rfl
@[simp] theorem State.completeAtOnce_backlog (s : State) (i : Slot) (st : Status) :
    (s.completeAtOnce i st).backlog = s.backlog := rfl
@[simp] theorem State.completeAtOnce_writer (s : State) (i : Slot) (st : Status) :
    (s.completeAtOnce i st).writer = s.writer := rfl
@[simp] theorem State.completeAtOnce_notice (s : State) (i : Slot) (st : Status) :
    (s.completeAtOnce i st).notice = s.notice := rfl
@[simp] theorem State.completeAtOnce_reports (s : State) (i : Slot) (st : Status) :
    (s.completeAtOnce i st).reports = s.reports := rfl
@[simp] theorem State.completeAtOnce_port (s : State) (i : Slot) (st : Status) :
    (s.completeAtOnce i st).port = s.port := rfl
@[simp] theorem State.completeAtOnce_lines (s : State) (i : Slot) (st : Status) :
    (s.completeAtOnce i st).lines = s.lines := rfl
@[simp] theorem State.completeAtOnce_offersMade (s : State) (i : Slot) (st : Status) :
    (s.completeAtOnce i st).offersMade = s.offersMade := rfl
@[simp] theorem State.completeAtOnce_pending (s : State) (i : Slot) (st : Status) :
    (s.completeAtOnce i st).pending = s.pending := rfl

/-! #### State.setCqNotice -/

@[simp] theorem State.setCqNotice_ctl (s : State) (q : CqNo) (c : CqNotice) : (s.setCqNotice q c).ctl = s.ctl := rfl
@[simp] theorem State.setCqNotice_block (s : State) (q : CqNo) (c : CqNotice) :
    (s.setCqNotice q c).block = s.block := rfl
@[simp] theorem State.setCqNotice_fetcher (s : State) (q : CqNo) (c : CqNotice) :
    (s.setCqNotice q c).fetcher = s.fetcher := rfl
@[simp] theorem State.setCqNotice_table (s : State) (q : CqNo) (c : CqNotice) :
    (s.setCqNotice q c).table = s.table := rfl
@[simp] theorem State.setCqNotice_dispatched (s : State) (q : CqNo) (c : CqNotice) :
    (s.setCqNotice q c).dispatched = s.dispatched := rfl
@[simp] theorem State.setCqNotice_fences (s : State) (q : CqNo) (c : CqNotice) :
    (s.setCqNotice q c).fences = s.fences := rfl
@[simp] theorem State.setCqNotice_fencesDone (s : State) (q : CqNo) (c : CqNotice) :
    (s.setCqNotice q c).fencesDone = s.fencesDone := rfl
@[simp] theorem State.setCqNotice_backlog (s : State) (q : CqNo) (c : CqNotice) :
    (s.setCqNotice q c).backlog = s.backlog := rfl
@[simp] theorem State.setCqNotice_writer (s : State) (q : CqNo) (c : CqNotice) :
    (s.setCqNotice q c).writer = s.writer := rfl
@[simp] theorem State.setCqNotice_notice (s : State) (q : CqNo) (c : CqNotice) :
    (s.setCqNotice q c).notice = { s.notice with cqs := s.notice.cqs.set q c } := rfl
@[simp] theorem State.setCqNotice_reports (s : State) (q : CqNo) (c : CqNotice) :
    (s.setCqNotice q c).reports = s.reports := rfl
@[simp] theorem State.setCqNotice_port (s : State) (q : CqNo) (c : CqNotice) :
    (s.setCqNotice q c).port = s.port := rfl
@[simp] theorem State.setCqNotice_lines (s : State) (q : CqNo) (c : CqNotice) :
    (s.setCqNotice q c).lines = s.lines := rfl
@[simp] theorem State.setCqNotice_offersMade (s : State) (q : CqNo) (c : CqNotice) :
    (s.setCqNotice q c).offersMade = s.offersMade := rfl
@[simp] theorem State.setCqNotice_pending (s : State) (q : CqNo) (c : CqNotice) :
    (s.setCqNotice q c).pending = s.pending := rfl

/-! #### State.updateNotify -/

@[simp] theorem State.updateNotify_ctl (s : State) : (s.updateNotify).ctl = s.ctl := rfl
@[simp] theorem State.updateNotify_block (s : State) : (s.updateNotify).block = s.block := rfl
@[simp] theorem State.updateNotify_fetcher (s : State) : (s.updateNotify).fetcher = s.fetcher := rfl
@[simp] theorem State.updateNotify_table (s : State) : (s.updateNotify).table = s.table := rfl
@[simp] theorem State.updateNotify_dispatched (s : State) : (s.updateNotify).dispatched = s.dispatched := rfl
@[simp] theorem State.updateNotify_fences (s : State) : (s.updateNotify).fences = s.fences := rfl
@[simp] theorem State.updateNotify_fencesDone (s : State) : (s.updateNotify).fencesDone = s.fencesDone := rfl
@[simp] theorem State.updateNotify_backlog (s : State) : (s.updateNotify).backlog = s.backlog := rfl
@[simp] theorem State.updateNotify_writer (s : State) : (s.updateNotify).writer = s.writer := rfl
@[simp] theorem State.updateNotify_notice (s : State) :
    (s.updateNotify).notice = { s.notice with pin := notifyCondition s.block s.notice } := rfl
@[simp] theorem State.updateNotify_reports (s : State) : (s.updateNotify).reports = s.reports := rfl
@[simp] theorem State.updateNotify_port (s : State) : (s.updateNotify).port = s.port := rfl
@[simp] theorem State.updateNotify_lines (s : State) : (s.updateNotify).lines = s.lines := rfl
@[simp] theorem State.updateNotify_offersMade (s : State) : (s.updateNotify).offersMade = s.offersMade := rfl
@[simp] theorem State.updateNotify_pending (s : State) : (s.updateNotify).pending = s.pending := rfl

/-! #### State.transferOver -/

@[simp] theorem State.transferOver_ctl (s : State) : (s.transferOver).ctl = s.ctl := rfl
@[simp] theorem State.transferOver_block (s : State) : (s.transferOver).block = s.block := rfl
@[simp] theorem State.transferOver_fetcher (s : State) : (s.transferOver).fetcher = s.fetcher := rfl
@[simp] theorem State.transferOver_table (s : State) : (s.transferOver).table = s.table := rfl
@[simp] theorem State.transferOver_dispatched (s : State) : (s.transferOver).dispatched = s.dispatched := rfl
@[simp] theorem State.transferOver_fences (s : State) : (s.transferOver).fences = s.fences := rfl
@[simp] theorem State.transferOver_fencesDone (s : State) : (s.transferOver).fencesDone = s.fencesDone := rfl
@[simp] theorem State.transferOver_backlog (s : State) : (s.transferOver).backlog = s.backlog := rfl
@[simp] theorem State.transferOver_writer (s : State) : (s.transferOver).writer = s.writer := rfl
@[simp] theorem State.transferOver_notice (s : State) : (s.transferOver).notice = s.notice := rfl
@[simp] theorem State.transferOver_reports (s : State) : (s.transferOver).reports = s.reports := rfl
@[simp] theorem State.transferOver_port (s : State) : (s.transferOver).port = { s.port with inFlight := none } := rfl
@[simp] theorem State.transferOver_lines (s : State) : (s.transferOver).lines = s.lines := rfl
@[simp] theorem State.transferOver_offersMade (s : State) : (s.transferOver).offersMade = s.offersMade := rfl
@[simp] theorem State.transferOver_pending (s : State) : (s.transferOver).pending = s.pending := rfl

/-! #### State.misplaced -/

@[simp] theorem State.misplaced_ctl (s : State) : (s.misplaced).ctl = { s.ctl with misplacedWrite := true } := rfl
@[simp] theorem State.misplaced_block (s : State) : (s.misplaced).block = s.block := rfl
@[simp] theorem State.misplaced_fetcher (s : State) : (s.misplaced).fetcher = s.fetcher := rfl
@[simp] theorem State.misplaced_table (s : State) : (s.misplaced).table = s.table := rfl
@[simp] theorem State.misplaced_dispatched (s : State) : (s.misplaced).dispatched = s.dispatched := rfl
@[simp] theorem State.misplaced_fences (s : State) : (s.misplaced).fences = s.fences := rfl
@[simp] theorem State.misplaced_fencesDone (s : State) : (s.misplaced).fencesDone = s.fencesDone := rfl
@[simp] theorem State.misplaced_backlog (s : State) : (s.misplaced).backlog = s.backlog := rfl
@[simp] theorem State.misplaced_writer (s : State) : (s.misplaced).writer = s.writer := rfl
@[simp] theorem State.misplaced_notice (s : State) : (s.misplaced).notice = s.notice := rfl
@[simp] theorem State.misplaced_reports (s : State) : (s.misplaced).reports = s.reports := rfl
@[simp] theorem State.misplaced_port (s : State) : (s.misplaced).port = s.port := rfl
@[simp] theorem State.misplaced_lines (s : State) : (s.misplaced).lines = s.lines := rfl
@[simp] theorem State.misplaced_offersMade (s : State) : (s.misplaced).offersMade = s.offersMade := rfl
@[simp] theorem State.misplaced_pending (s : State) : (s.misplaced).pending = s.pending := rfl

/-! #### State.outOfRange -/

@[simp] theorem State.outOfRange_ctl (s : State) : (s.outOfRange).ctl = { s.ctl with rangeError := true } := rfl
@[simp] theorem State.outOfRange_block (s : State) : (s.outOfRange).block = s.block := rfl
@[simp] theorem State.outOfRange_fetcher (s : State) : (s.outOfRange).fetcher = s.fetcher := rfl
@[simp] theorem State.outOfRange_table (s : State) : (s.outOfRange).table = s.table := rfl
@[simp] theorem State.outOfRange_dispatched (s : State) : (s.outOfRange).dispatched = s.dispatched := rfl
@[simp] theorem State.outOfRange_fences (s : State) : (s.outOfRange).fences = s.fences := rfl
@[simp] theorem State.outOfRange_fencesDone (s : State) : (s.outOfRange).fencesDone = s.fencesDone := rfl
@[simp] theorem State.outOfRange_backlog (s : State) : (s.outOfRange).backlog = s.backlog := rfl
@[simp] theorem State.outOfRange_writer (s : State) : (s.outOfRange).writer = s.writer := rfl
@[simp] theorem State.outOfRange_notice (s : State) : (s.outOfRange).notice = s.notice := rfl
@[simp] theorem State.outOfRange_reports (s : State) : (s.outOfRange).reports = s.reports := rfl
@[simp] theorem State.outOfRange_port (s : State) : (s.outOfRange).port = s.port := rfl
@[simp] theorem State.outOfRange_lines (s : State) : (s.outOfRange).lines = s.lines := rfl
@[simp] theorem State.outOfRange_offersMade (s : State) : (s.outOfRange).offersMade = s.offersMade := rfl
@[simp] theorem State.outOfRange_pending (s : State) : (s.outOfRange).pending = s.pending := rfl

/-! #### Line.finishCommand -/

@[simp] theorem Line.finishCommand_record (l : Line) (st : Status) (count : Nat) (detail : Word) :
    (l.finishCommand st count detail).record = l.record := rfl
@[simp] theorem Line.finishCommand_state (l : Line) (st : Status) (count : Nat) (detail : Word) :
    (l.finishCommand st count detail).state = l.state := rfl
@[simp] theorem Line.finishCommand_control (l : Line) (st : Status) (count : Nat) (detail : Word) :
    (l.finishCommand st count detail).control = finishHead { status := st, count := BitVec.ofNat 16 count, detail } l.control := rfl
@[simp] theorem Line.finishCommand_progress (l : Line) (st : Status) (count : Nat) (detail : Word) :
    (l.finishCommand st count detail).progress = .untaken := rfl
@[simp] theorem Line.finishCommand_rate (l : Line) (st : Status) (count : Nat) (detail : Word) :
    (l.finishCommand st count detail).rate = l.rate := rfl
@[simp] theorem Line.finishCommand_rx (l : Line) (st : Status) (count : Nat) (detail : Word) :
    (l.finishCommand st count detail).rx = l.rx := rfl
@[simp] theorem Line.finishCommand_filler (l : Line) (st : Status) (count : Nat) (detail : Word) :
    (l.finishCommand st count detail).filler = l.filler := rfl
@[simp] theorem Line.finishCommand_tx (l : Line) (st : Status) (count : Nat) (detail : Word) :
    (l.finishCommand st count detail).tx = l.tx := rfl
@[simp] theorem Line.finishCommand_poll (l : Line) (st : Status) (count : Nat) (detail : Word) :
    (l.finishCommand st count detail).poll = l.poll := rfl
@[simp] theorem Line.finishCommand_event (l : Line) (st : Status) (count : Nat) (detail : Word) :
    (l.finishCommand st count detail).event = l.event := rfl
@[simp] theorem Line.finishCommand_rts (l : Line) (st : Status) (count : Nat) (detail : Word) :
    (l.finishCommand st count detail).rts = l.rts := rfl
@[simp] theorem Line.finishCommand_de (l : Line) (st : Status) (count : Nat) (detail : Word) :
    (l.finishCommand st count detail).de = l.de := rfl

/-! #### Line.commandEntered -/

@[simp] theorem Line.commandEntered_record (l : Line) : (l.commandEntered).record = l.record := rfl
@[simp] theorem Line.commandEntered_state (l : Line) : (l.commandEntered).state = l.state := rfl
@[simp] theorem Line.commandEntered_control (l : Line) :
    (l.commandEntered).control = activateHead l.control.tail := rfl
@[simp] theorem Line.commandEntered_progress (l : Line) : (l.commandEntered).progress = .untaken := rfl
@[simp] theorem Line.commandEntered_rate (l : Line) : (l.commandEntered).rate = l.rate := rfl
@[simp] theorem Line.commandEntered_rx (l : Line) : (l.commandEntered).rx = l.rx := rfl
@[simp] theorem Line.commandEntered_filler (l : Line) : (l.commandEntered).filler = l.filler := rfl
@[simp] theorem Line.commandEntered_tx (l : Line) : (l.commandEntered).tx = l.tx := rfl
@[simp] theorem Line.commandEntered_poll (l : Line) : (l.commandEntered).poll = l.poll := rfl
@[simp] theorem Line.commandEntered_event (l : Line) : (l.commandEntered).event = l.event := rfl
@[simp] theorem Line.commandEntered_rts (l : Line) : (l.commandEntered).rts = l.rts := rfl
@[simp] theorem Line.commandEntered_de (l : Line) : (l.commandEntered).de = l.de := rfl

/-! #### Line.joinControl -/

@[simp] theorem Line.joinControl_record (l : Line) (i : Slot) (c : LineCommand) :
    (l.joinControl i c).record = l.record := rfl
@[simp] theorem Line.joinControl_state (l : Line) (i : Slot) (c : LineCommand) :
    (l.joinControl i c).state = l.state := rfl
@[simp] theorem Line.joinControl_control (l : Line) (i : Slot) (c : LineCommand) :
    (l.joinControl i c).control = l.control ++ [{ slot := i, phase := if l.control.isEmpty then .active else .listed, body := c }] := rfl
@[simp] theorem Line.joinControl_progress (l : Line) (i : Slot) (c : LineCommand) :
    (l.joinControl i c).progress = l.progress := rfl
@[simp] theorem Line.joinControl_rate (l : Line) (i : Slot) (c : LineCommand) :
    (l.joinControl i c).rate = l.rate := rfl
@[simp] theorem Line.joinControl_rx (l : Line) (i : Slot) (c : LineCommand) : (l.joinControl i c).rx = l.rx := rfl
@[simp] theorem Line.joinControl_filler (l : Line) (i : Slot) (c : LineCommand) :
    (l.joinControl i c).filler = l.filler := rfl
@[simp] theorem Line.joinControl_tx (l : Line) (i : Slot) (c : LineCommand) : (l.joinControl i c).tx = l.tx := rfl
@[simp] theorem Line.joinControl_poll (l : Line) (i : Slot) (c : LineCommand) :
    (l.joinControl i c).poll = l.poll := rfl
@[simp] theorem Line.joinControl_event (l : Line) (i : Slot) (c : LineCommand) :
    (l.joinControl i c).event = l.event := rfl
@[simp] theorem Line.joinControl_rts (l : Line) (i : Slot) (c : LineCommand) : (l.joinControl i c).rts = l.rts := rfl
@[simp] theorem Line.joinControl_de (l : Line) (i : Slot) (c : LineCommand) : (l.joinControl i c).de = l.de := rfl

/-! #### Line.rxOff -/

@[simp] theorem Line.rxOff_record (l : Line) : (l.rxOff).record = l.record := rfl
@[simp] theorem Line.rxOff_state (l : Line) : (l.rxOff).state = l.state := rfl
@[simp] theorem Line.rxOff_control (l : Line) : (l.rxOff).control = l.control := rfl
@[simp] theorem Line.rxOff_progress (l : Line) : (l.rxOff).progress = l.progress := rfl
@[simp] theorem Line.rxOff_rate (l : Line) : (l.rxOff).rate = l.rate := rfl
@[simp] theorem Line.rxOff_rx (l : Line) :
    (l.rxOff).rx = { l.rx with state := .off, read := [], sample := 0, idleTimer := none } := rfl
@[simp] theorem Line.rxOff_filler (l : Line) : (l.rxOff).filler = l.filler := rfl
@[simp] theorem Line.rxOff_tx (l : Line) : (l.rxOff).tx = l.tx := rfl
@[simp] theorem Line.rxOff_poll (l : Line) : (l.rxOff).poll = l.poll := rfl
@[simp] theorem Line.rxOff_event (l : Line) : (l.rxOff).event = l.event := rfl
@[simp] theorem Line.rxOff_rts (l : Line) : (l.rxOff).rts = l.rts := rfl
@[simp] theorem Line.rxOff_de (l : Line) : (l.rxOff).de = l.de := rfl

/-! #### Line.discardStaged -/

@[simp] theorem Line.discardStaged_record (l : Line) : (l.discardStaged).record = l.record := rfl
@[simp] theorem Line.discardStaged_state (l : Line) : (l.discardStaged).state = l.state := rfl
@[simp] theorem Line.discardStaged_control (l : Line) : (l.discardStaged).control = l.control := rfl
@[simp] theorem Line.discardStaged_progress (l : Line) : (l.discardStaged).progress = l.progress := rfl
@[simp] theorem Line.discardStaged_rate (l : Line) : (l.discardStaged).rate = l.rate := rfl
@[simp] theorem Line.discardStaged_rx (l : Line) : (l.discardStaged).rx = { l.rx with fifo := [] } := rfl
@[simp] theorem Line.discardStaged_filler (l : Line) : (l.discardStaged).filler = l.filler := rfl
@[simp] theorem Line.discardStaged_tx (l : Line) : (l.discardStaged).tx = l.tx := rfl
@[simp] theorem Line.discardStaged_poll (l : Line) : (l.discardStaged).poll = l.poll := rfl
@[simp] theorem Line.discardStaged_event (l : Line) : (l.discardStaged).event = l.event := rfl
@[simp] theorem Line.discardStaged_rts (l : Line) : (l.discardStaged).rts = l.rts := rfl
@[simp] theorem Line.discardStaged_de (l : Line) : (l.discardStaged).de = l.de := rfl

/-! #### Line.addLost -/

@[simp] theorem Line.addLost_record (l : Line) (n : Nat) : (l.addLost n).record = l.record := rfl
@[simp] theorem Line.addLost_state (l : Line) (n : Nat) : (l.addLost n).state = l.state := rfl
@[simp] theorem Line.addLost_control (l : Line) (n : Nat) : (l.addLost n).control = l.control := rfl
@[simp] theorem Line.addLost_progress (l : Line) (n : Nat) : (l.addLost n).progress = l.progress := rfl
@[simp] theorem Line.addLost_rate (l : Line) (n : Nat) : (l.addLost n).rate = l.rate := rfl
@[simp] theorem Line.addLost_rx (l : Line) (n : Nat) :
    (l.addLost n).rx = { l.rx with lost := saturate 65535 (l.rx.lost + n) } := rfl
@[simp] theorem Line.addLost_filler (l : Line) (n : Nat) : (l.addLost n).filler = l.filler := rfl
@[simp] theorem Line.addLost_tx (l : Line) (n : Nat) : (l.addLost n).tx = l.tx := rfl
@[simp] theorem Line.addLost_poll (l : Line) (n : Nat) : (l.addLost n).poll = l.poll := rfl
@[simp] theorem Line.addLost_event (l : Line) (n : Nat) : (l.addLost n).event = l.event := rfl
@[simp] theorem Line.addLost_rts (l : Line) (n : Nat) : (l.addLost n).rts = l.rts := rfl
@[simp] theorem Line.addLost_de (l : Line) (n : Nat) : (l.addLost n).de = l.de := rfl

/-! #### Line.placeMark -/

@[simp] theorem Line.placeMark_record (l : Line) (m : CloseMark) : (l.placeMark m).record = l.record := rfl
@[simp] theorem Line.placeMark_state (l : Line) (m : CloseMark) : (l.placeMark m).state = l.state := rfl
@[simp] theorem Line.placeMark_control (l : Line) (m : CloseMark) : (l.placeMark m).control = l.control := rfl
@[simp] theorem Line.placeMark_progress (l : Line) (m : CloseMark) : (l.placeMark m).progress = l.progress := rfl
@[simp] theorem Line.placeMark_rate (l : Line) (m : CloseMark) : (l.placeMark m).rate = l.rate := rfl
@[simp] theorem Line.placeMark_rx (l : Line) (m : CloseMark) :
    (l.placeMark m).rx = { l.rx with fifo := markNewest m l.rx.fifo, armed := false } := rfl
@[simp] theorem Line.placeMark_filler (l : Line) (m : CloseMark) : (l.placeMark m).filler = l.filler := rfl
@[simp] theorem Line.placeMark_tx (l : Line) (m : CloseMark) : (l.placeMark m).tx = l.tx := rfl
@[simp] theorem Line.placeMark_poll (l : Line) (m : CloseMark) : (l.placeMark m).poll = l.poll := rfl
@[simp] theorem Line.placeMark_event (l : Line) (m : CloseMark) : (l.placeMark m).event = l.event := rfl
@[simp] theorem Line.placeMark_rts (l : Line) (m : CloseMark) : (l.placeMark m).rts = l.rts := rfl
@[simp] theorem Line.placeMark_de (l : Line) (m : CloseMark) : (l.placeMark m).de = l.de := rfl

/-! #### Line.readCts -/

@[simp] theorem Line.readCts_record (l : Line) (c : Bool) : (l.readCts c).record = l.record := rfl
@[simp] theorem Line.readCts_state (l : Line) (c : Bool) : (l.readCts c).state = l.state := rfl
@[simp] theorem Line.readCts_control (l : Line) (c : Bool) : (l.readCts c).control = l.control := rfl
@[simp] theorem Line.readCts_progress (l : Line) (c : Bool) : (l.readCts c).progress = l.progress := rfl
@[simp] theorem Line.readCts_rate (l : Line) (c : Bool) : (l.readCts c).rate = l.rate := rfl
@[simp] theorem Line.readCts_rx (l : Line) (c : Bool) : (l.readCts c).rx = l.rx := rfl
@[simp] theorem Line.readCts_filler (l : Line) (c : Bool) : (l.readCts c).filler = l.filler := rfl
@[simp] theorem Line.readCts_tx (l : Line) (c : Bool) : (l.readCts c).tx = { l.tx with cts := c } := rfl
@[simp] theorem Line.readCts_poll (l : Line) (c : Bool) : (l.readCts c).poll = l.poll := rfl
@[simp] theorem Line.readCts_event (l : Line) (c : Bool) : (l.readCts c).event = l.event := rfl
@[simp] theorem Line.readCts_rts (l : Line) (c : Bool) : (l.readCts c).rts = l.rts := rfl
@[simp] theorem Line.readCts_de (l : Line) (c : Bool) : (l.readCts c).de = l.de := rfl

/-! #### Line.startFrame -/

@[simp] theorem Line.startFrame_record (l : Line) (v : Byte) (m : Bool) : (l.startFrame v m).record = l.record := rfl
@[simp] theorem Line.startFrame_state (l : Line) (v : Byte) (m : Bool) : (l.startFrame v m).state = l.state := rfl
@[simp] theorem Line.startFrame_control (l : Line) (v : Byte) (m : Bool) :
    (l.startFrame v m).control = l.control := rfl
@[simp] theorem Line.startFrame_progress (l : Line) (v : Byte) (m : Bool) :
    (l.startFrame v m).progress = l.progress := rfl
@[simp] theorem Line.startFrame_rate (l : Line) (v : Byte) (m : Bool) : (l.startFrame v m).rate = l.rate := rfl
@[simp] theorem Line.startFrame_rx (l : Line) (v : Byte) (m : Bool) : (l.startFrame v m).rx = l.rx := rfl
@[simp] theorem Line.startFrame_filler (l : Line) (v : Byte) (m : Bool) : (l.startFrame v m).filler = l.filler := rfl
@[simp] theorem Line.startFrame_tx (l : Line) (v : Byte) (m : Bool) :
    (l.startFrame v m).tx = { l.tx with state := .send, txd := .frame (txFrame l.record v m), ctsTimer := none, gapTimer := none } := rfl
@[simp] theorem Line.startFrame_poll (l : Line) (v : Byte) (m : Bool) : (l.startFrame v m).poll = l.poll := rfl
@[simp] theorem Line.startFrame_event (l : Line) (v : Byte) (m : Bool) : (l.startFrame v m).event = l.event := rfl
@[simp] theorem Line.startFrame_rts (l : Line) (v : Byte) (m : Bool) : (l.startFrame v m).rts = l.rts := rfl
@[simp] theorem Line.startFrame_de (l : Line) (v : Byte) (m : Bool) : (l.startFrame v m).de = l.de := rfl

/-! #### Line.joinSends -/

@[simp] theorem Line.joinSends_record (l : Line) (i : Slot) (b : SendBody) :
    (l.joinSends i b).record = l.record := rfl
@[simp] theorem Line.joinSends_state (l : Line) (i : Slot) (b : SendBody) : (l.joinSends i b).state = l.state := rfl
@[simp] theorem Line.joinSends_control (l : Line) (i : Slot) (b : SendBody) :
    (l.joinSends i b).control = l.control := rfl
@[simp] theorem Line.joinSends_progress (l : Line) (i : Slot) (b : SendBody) :
    (l.joinSends i b).progress = l.progress := rfl
@[simp] theorem Line.joinSends_rate (l : Line) (i : Slot) (b : SendBody) : (l.joinSends i b).rate = l.rate := rfl
@[simp] theorem Line.joinSends_rx (l : Line) (i : Slot) (b : SendBody) : (l.joinSends i b).rx = l.rx := rfl
@[simp] theorem Line.joinSends_filler (l : Line) (i : Slot) (b : SendBody) :
    (l.joinSends i b).filler = l.filler := rfl
@[simp] theorem Line.joinSends_tx (l : Line) (i : Slot) (b : SendBody) :
    (l.joinSends i b).tx = { l.tx with list := l.tx.list ++ [{ slot := i, phase := .listed, body := b }] } := rfl
@[simp] theorem Line.joinSends_poll (l : Line) (i : Slot) (b : SendBody) : (l.joinSends i b).poll = l.poll := rfl
@[simp] theorem Line.joinSends_event (l : Line) (i : Slot) (b : SendBody) : (l.joinSends i b).event = l.event := rfl
@[simp] theorem Line.joinSends_rts (l : Line) (i : Slot) (b : SendBody) : (l.joinSends i b).rts = l.rts := rfl
@[simp] theorem Line.joinSends_de (l : Line) (i : Slot) (b : SendBody) : (l.joinSends i b).de = l.de := rfl

/-! #### Line.joinPolls -/

@[simp] theorem Line.joinPolls_record (l : Line) (i : Slot) (w : PollWork) :
    (l.joinPolls i w).record = l.record := rfl
@[simp] theorem Line.joinPolls_state (l : Line) (i : Slot) (w : PollWork) : (l.joinPolls i w).state = l.state := rfl
@[simp] theorem Line.joinPolls_control (l : Line) (i : Slot) (w : PollWork) :
    (l.joinPolls i w).control = l.control := rfl
@[simp] theorem Line.joinPolls_progress (l : Line) (i : Slot) (w : PollWork) :
    (l.joinPolls i w).progress = l.progress := rfl
@[simp] theorem Line.joinPolls_rate (l : Line) (i : Slot) (w : PollWork) : (l.joinPolls i w).rate = l.rate := rfl
@[simp] theorem Line.joinPolls_rx (l : Line) (i : Slot) (w : PollWork) : (l.joinPolls i w).rx = l.rx := rfl
@[simp] theorem Line.joinPolls_filler (l : Line) (i : Slot) (w : PollWork) :
    (l.joinPolls i w).filler = l.filler := rfl
@[simp] theorem Line.joinPolls_tx (l : Line) (i : Slot) (w : PollWork) : (l.joinPolls i w).tx = l.tx := rfl
@[simp] theorem Line.joinPolls_poll (l : Line) (i : Slot) (w : PollWork) :
    (l.joinPolls i w).poll = { l.poll with list := l.poll.list ++ [{ slot := i, phase := .listed, body := w }] } := rfl
@[simp] theorem Line.joinPolls_event (l : Line) (i : Slot) (w : PollWork) : (l.joinPolls i w).event = l.event := rfl
@[simp] theorem Line.joinPolls_rts (l : Line) (i : Slot) (w : PollWork) : (l.joinPolls i w).rts = l.rts := rfl
@[simp] theorem Line.joinPolls_de (l : Line) (i : Slot) (w : PollWork) : (l.joinPolls i w).de = l.de := rfl

/-! #### Line.closeWindow -/

@[simp] theorem Line.closeWindow_record (l : Line) : (l.closeWindow).record = l.record := rfl
@[simp] theorem Line.closeWindow_state (l : Line) : (l.closeWindow).state = l.state := rfl
@[simp] theorem Line.closeWindow_control (l : Line) : (l.closeWindow).control = l.control := rfl
@[simp] theorem Line.closeWindow_progress (l : Line) : (l.closeWindow).progress = l.progress := rfl
@[simp] theorem Line.closeWindow_rate (l : Line) : (l.closeWindow).rate = l.rate := rfl
@[simp] theorem Line.closeWindow_rx (l : Line) : (l.closeWindow).rx = { l.rx with fifo := [] } := rfl
@[simp] theorem Line.closeWindow_filler (l : Line) : (l.closeWindow).filler = l.filler := rfl
@[simp] theorem Line.closeWindow_tx (l : Line) : (l.closeWindow).tx = l.tx := rfl
@[simp] theorem Line.closeWindow_poll (l : Line) : (l.closeWindow).poll = { l.poll with window := false } := rfl
@[simp] theorem Line.closeWindow_event (l : Line) : (l.closeWindow).event = l.event := rfl
@[simp] theorem Line.closeWindow_rts (l : Line) : (l.closeWindow).rts = l.rts := rfl
@[simp] theorem Line.closeWindow_de (l : Line) : (l.closeWindow).de = l.de := rfl

/-! #### Conditions -/

@[simp] theorem raise_record (c : Condition) (l : Line) : (raise c l).record = l.record := rfl
@[simp] theorem raise_state (c : Condition) (l : Line) : (raise c l).state = l.state := rfl
@[simp] theorem raise_control (c : Condition) (l : Line) : (raise c l).control = l.control := rfl
@[simp] theorem raise_progress (c : Condition) (l : Line) : (raise c l).progress = l.progress := rfl
@[simp] theorem raise_rate (c : Condition) (l : Line) : (raise c l).rate = l.rate := rfl
@[simp] theorem raise_rx (c : Condition) (l : Line) : (raise c l).rx = l.rx := rfl
@[simp] theorem raise_filler (c : Condition) (l : Line) : (raise c l).filler = l.filler := rfl
@[simp] theorem raise_tx (c : Condition) (l : Line) : (raise c l).tx = l.tx := rfl
@[simp] theorem raise_poll (c : Condition) (l : Line) : (raise c l).poll = l.poll := rfl
@[simp] theorem raise_queued (c : Condition) (l : Line) : (raise c l).event.queued = l.event.queued := rfl
@[simp] theorem raise_rts (c : Condition) (l : Line) : (raise c l).rts = l.rts := rfl
@[simp] theorem raise_de (c : Condition) (l : Line) : (raise c l).de = l.de := rfl

/-! #### Lines and entries after an update -/

@[simp] theorem State.line_setLine_same (s : State) (n : LineNo) (l : Line) : (s.setLine n l).line n = l := by
  simp [State.line]

theorem State.line_setLine_other (s : State) {n k : LineNo} (l : Line) (h : k ≠ n) :
    (s.setLine n l).line k = s.line k := by
  have : n.val ≠ k.val := fun e => h (Fin.ext e.symm)
  simp [State.line, this]

theorem State.line_setLine (s : State) (n k : LineNo) (l : Line) :
    (s.setLine n l).line k = if k = n then l else s.line k := by
  split
  · next h => rw [h, State.line_setLine_same]
  · next h => exact State.line_setLine_other s l h

@[simp] theorem State.setLine_setLine (s : State) (n : LineNo) (l l' : Line) :
    (s.setLine n l).setLine n l' = s.setLine n l' := by
  simp [State.setLine]

@[simp] theorem State.setLine_self (s : State) (n : LineNo) : s.setLine n (s.line n) = s := by
  simp [State.setLine, State.line]

@[simp] theorem State.entry_setLine (s : State) (n : LineNo) (l : Line) (i : Slot) :
    (s.setLine n l).entry i = s.entry i := rfl

@[simp] theorem State.entry_setEntry_same (s : State) (i : Slot) (e : Option Entry) : (s.setEntry i e).entry i = e := by
  simp [State.entry]

theorem State.entry_setEntry_other (s : State) {i j : Slot} (e : Option Entry) (h : j ≠ i) :
    (s.setEntry i e).entry j = s.entry j := by
  have : i.val ≠ j.val := fun e => h (Fin.ext e.symm)
  simp [State.entry, this]

@[simp] theorem State.line_setEntry (s : State) (i : Slot) (e : Option Entry) (n : LineNo) :
    (s.setEntry i e).line n = s.line n := rfl

@[simp] theorem State.line_leaveWaitSets (s : State) (i : Slot) (n : LineNo) :
    (s.leaveWaitSets i).line n = s.line n := rfl

@[simp] theorem State.line_transferOver (s : State) (n : LineNo) : s.transferOver.line n = s.line n := rfl

@[simp] theorem State.line_updateNotify (s : State) (n : LineNo) : s.updateNotify.line n = s.line n := rfl

end Sys2Proof.Machine
end

