-- ==== Sys2Proof/Laws/Ops.lean ====
section
/-! SUPPORT. What the shared operations of the part can do: admission to the backlog and the offers of a moment, a
line's part in a step, the end of a transfer, entry to FAULTED, the resets. -/

namespace Sys2Proof.Machine

/-! #### What admissions leave alone -/

@[simp] theorem State.enterRecord_ctl (s : State) (i : Slot) (r : Result) : (s.enterRecord i r).ctl = s.ctl := by
  unfold State.enterRecord; split <;> rfl

@[simp] theorem State.producerMovesOn_ctl (s : State) (i : Slot) (r : Result) (p : Producer) :
    (s.producerMovesOn i r p).ctl = s.ctl := by
  cases p <;> simp only [State.producerMovesOn] <;> first | rfl | (split <;> rfl)

@[simp] theorem State.enterBacklog_ctl (s : State) (p : Producer) : (s.enterBacklog p).ctl = s.ctl := by
  unfold State.enterBacklog
  split
  · rfl
  · split <;> simp

@[simp] theorem State.offer_ctl (s : State) (p : Producer) : (s.offer p).ctl = s.ctl := by
  unfold State.offer; split <;> simp

@[simp] theorem State.pickOffer_ctl (s : State) (c : Producer) (cs : List Producer) :
    (s.pickOffer c cs).2.ctl = s.ctl := by
  cases cs <;> rfl

@[simp] theorem State.settle_ctl (ps : List Producer) (k : Nat) (s : State) : (State.settle ps k s).ctl = s.ctl := by
  induction k generalizing s with
  | zero => rfl
  | succ k ih => unfold State.settle; split <;> simp [*]

@[simp] theorem State.updateLine_ctl (s : State) (n : LineNo) (l : Line) : (s.updateLine n l).ctl = s.ctl := by
  simp [State.updateLine]

@[simp] theorem State.enterRecord_block (s : State) (i : Slot) (r : Result) : (s.enterRecord i r).block = s.block := by
  unfold State.enterRecord; split <;> rfl

@[simp] theorem State.producerMovesOn_block (s : State) (i : Slot) (r : Result) (p : Producer) :
    (s.producerMovesOn i r p).block = s.block := by
  cases p <;> simp only [State.producerMovesOn] <;> first | rfl | (split <;> rfl)

@[simp] theorem State.enterBacklog_block (s : State) (p : Producer) : (s.enterBacklog p).block = s.block := by
  unfold State.enterBacklog
  split
  · rfl
  · split <;> simp

@[simp] theorem State.offer_block (s : State) (p : Producer) : (s.offer p).block = s.block := by
  unfold State.offer; split <;> simp

@[simp] theorem State.pickOffer_block (s : State) (c : Producer) (cs : List Producer) :
    (s.pickOffer c cs).2.block = s.block := by
  cases cs <;> rfl

@[simp] theorem State.settle_block (ps : List Producer) (k : Nat) (s : State) : (State.settle ps k s).block = s.block := by
  induction k generalizing s with
  | zero => rfl
  | succ k ih => unfold State.settle; split <;> simp [*]

@[simp] theorem State.updateLine_block (s : State) (n : LineNo) (l : Line) : (s.updateLine n l).block = s.block := by
  simp [State.updateLine]

@[simp] theorem State.enterRecord_fetcher (s : State) (i : Slot) (r : Result) : (s.enterRecord i r).fetcher = s.fetcher := by
  unfold State.enterRecord; split <;> rfl

@[simp] theorem State.producerMovesOn_fetcher (s : State) (i : Slot) (r : Result) (p : Producer) :
    (s.producerMovesOn i r p).fetcher = s.fetcher := by
  cases p <;> simp only [State.producerMovesOn] <;> first | rfl | (split <;> rfl)

@[simp] theorem State.enterBacklog_fetcher (s : State) (p : Producer) : (s.enterBacklog p).fetcher = s.fetcher := by
  unfold State.enterBacklog
  split
  · rfl
  · split <;> simp

@[simp] theorem State.offer_fetcher (s : State) (p : Producer) : (s.offer p).fetcher = s.fetcher := by
  unfold State.offer; split <;> simp

@[simp] theorem State.pickOffer_fetcher (s : State) (c : Producer) (cs : List Producer) :
    (s.pickOffer c cs).2.fetcher = s.fetcher := by
  cases cs <;> rfl

@[simp] theorem State.settle_fetcher (ps : List Producer) (k : Nat) (s : State) : (State.settle ps k s).fetcher = s.fetcher := by
  induction k generalizing s with
  | zero => rfl
  | succ k ih => unfold State.settle; split <;> simp [*]

@[simp] theorem State.updateLine_fetcher (s : State) (n : LineNo) (l : Line) : (s.updateLine n l).fetcher = s.fetcher := by
  simp [State.updateLine]

@[simp] theorem State.enterRecord_writer (s : State) (i : Slot) (r : Result) : (s.enterRecord i r).writer = s.writer := by
  unfold State.enterRecord; split <;> rfl

@[simp] theorem State.producerMovesOn_writer (s : State) (i : Slot) (r : Result) (p : Producer) :
    (s.producerMovesOn i r p).writer = s.writer := by
  cases p <;> simp only [State.producerMovesOn] <;> first | rfl | (split <;> rfl)

@[simp] theorem State.enterBacklog_writer (s : State) (p : Producer) : (s.enterBacklog p).writer = s.writer := by
  unfold State.enterBacklog
  split
  · rfl
  · split <;> simp

@[simp] theorem State.offer_writer (s : State) (p : Producer) : (s.offer p).writer = s.writer := by
  unfold State.offer; split <;> simp

@[simp] theorem State.pickOffer_writer (s : State) (c : Producer) (cs : List Producer) :
    (s.pickOffer c cs).2.writer = s.writer := by
  cases cs <;> rfl

@[simp] theorem State.settle_writer (ps : List Producer) (k : Nat) (s : State) : (State.settle ps k s).writer = s.writer := by
  induction k generalizing s with
  | zero => rfl
  | succ k ih => unfold State.settle; split <;> simp [*]

@[simp] theorem State.updateLine_writer (s : State) (n : LineNo) (l : Line) : (s.updateLine n l).writer = s.writer := by
  simp [State.updateLine]

@[simp] theorem State.enterRecord_notice (s : State) (i : Slot) (r : Result) : (s.enterRecord i r).notice = s.notice := by
  unfold State.enterRecord; split <;> rfl

@[simp] theorem State.producerMovesOn_notice (s : State) (i : Slot) (r : Result) (p : Producer) :
    (s.producerMovesOn i r p).notice = s.notice := by
  cases p <;> simp only [State.producerMovesOn] <;> first | rfl | (split <;> rfl)

@[simp] theorem State.enterBacklog_notice (s : State) (p : Producer) : (s.enterBacklog p).notice = s.notice := by
  unfold State.enterBacklog
  split
  · rfl
  · split <;> simp

@[simp] theorem State.offer_notice (s : State) (p : Producer) : (s.offer p).notice = s.notice := by
  unfold State.offer; split <;> simp

@[simp] theorem State.pickOffer_notice (s : State) (c : Producer) (cs : List Producer) :
    (s.pickOffer c cs).2.notice = s.notice := by
  cases cs <;> rfl

@[simp] theorem State.settle_notice (ps : List Producer) (k : Nat) (s : State) : (State.settle ps k s).notice = s.notice := by
  induction k generalizing s with
  | zero => rfl
  | succ k ih => unfold State.settle; split <;> simp [*]

@[simp] theorem State.updateLine_notice (s : State) (n : LineNo) (l : Line) : (s.updateLine n l).notice = s.notice := by
  simp [State.updateLine]

@[simp] theorem State.enterRecord_reports (s : State) (i : Slot) (r : Result) : (s.enterRecord i r).reports = s.reports := by
  unfold State.enterRecord; split <;> rfl

@[simp] theorem State.producerMovesOn_reports (s : State) (i : Slot) (r : Result) (p : Producer) :
    (s.producerMovesOn i r p).reports = s.reports := by
  cases p <;> simp only [State.producerMovesOn] <;> first | rfl | (split <;> rfl)

@[simp] theorem State.enterBacklog_reports (s : State) (p : Producer) : (s.enterBacklog p).reports = s.reports := by
  unfold State.enterBacklog
  split
  · rfl
  · split <;> simp

@[simp] theorem State.offer_reports (s : State) (p : Producer) : (s.offer p).reports = s.reports := by
  unfold State.offer; split <;> simp

@[simp] theorem State.pickOffer_reports (s : State) (c : Producer) (cs : List Producer) :
    (s.pickOffer c cs).2.reports = s.reports := by
  cases cs <;> rfl

@[simp] theorem State.settle_reports (ps : List Producer) (k : Nat) (s : State) : (State.settle ps k s).reports = s.reports := by
  induction k generalizing s with
  | zero => rfl
  | succ k ih => unfold State.settle; split <;> simp [*]

@[simp] theorem State.updateLine_reports (s : State) (n : LineNo) (l : Line) : (s.updateLine n l).reports = s.reports := by
  simp [State.updateLine]

@[simp] theorem State.enterRecord_port (s : State) (i : Slot) (r : Result) : (s.enterRecord i r).port = s.port := by
  unfold State.enterRecord; split <;> rfl

@[simp] theorem State.producerMovesOn_port (s : State) (i : Slot) (r : Result) (p : Producer) :
    (s.producerMovesOn i r p).port = s.port := by
  cases p <;> simp only [State.producerMovesOn] <;> first | rfl | (split <;> rfl)

@[simp] theorem State.enterBacklog_port (s : State) (p : Producer) : (s.enterBacklog p).port = s.port := by
  unfold State.enterBacklog
  split
  · rfl
  · split <;> simp

@[simp] theorem State.offer_port (s : State) (p : Producer) : (s.offer p).port = s.port := by
  unfold State.offer; split <;> simp

@[simp] theorem State.pickOffer_port (s : State) (c : Producer) (cs : List Producer) :
    (s.pickOffer c cs).2.port = s.port := by
  cases cs <;> rfl

@[simp] theorem State.settle_port (ps : List Producer) (k : Nat) (s : State) : (State.settle ps k s).port = s.port := by
  induction k generalizing s with
  | zero => rfl
  | succ k ih => unfold State.settle; split <;> simp [*]

@[simp] theorem State.updateLine_port (s : State) (n : LineNo) (l : Line) : (s.updateLine n l).port = s.port := by
  simp [State.updateLine]

@[simp] theorem State.enterRecord_pending (s : State) (i : Slot) (r : Result) : (s.enterRecord i r).pending = s.pending := by
  unfold State.enterRecord; split <;> rfl

@[simp] theorem State.producerMovesOn_pending (s : State) (i : Slot) (r : Result) (p : Producer) :
    (s.producerMovesOn i r p).pending = s.pending := by
  cases p <;> simp only [State.producerMovesOn] <;> first | rfl | (split <;> rfl)

@[simp] theorem State.enterBacklog_pending (s : State) (p : Producer) : (s.enterBacklog p).pending = s.pending := by
  unfold State.enterBacklog
  split
  · rfl
  · split <;> simp

@[simp] theorem State.offer_pending (s : State) (p : Producer) : (s.offer p).pending = s.pending := by
  unfold State.offer; split <;> simp

@[simp] theorem State.pickOffer_pending (s : State) (c : Producer) (cs : List Producer) :
    (s.pickOffer c cs).2.pending = s.pending := by
  cases cs <;> rfl

@[simp] theorem State.settle_pending (ps : List Producer) (k : Nat) (s : State) : (State.settle ps k s).pending = s.pending := by
  induction k generalizing s with
  | zero => rfl
  | succ k ih => unfold State.settle; split <;> simp [*]

@[simp] theorem State.updateLine_pending (s : State) (n : LineNo) (l : Line) : (s.updateLine n l).pending = s.pending := by
  simp [State.updateLine]

/-! #### Offers of a moment -/

/-- With nothing new on offer, nothing is admitted and nobody waits anew. -/
theorem State.settle_of_no_offers (ps : List Producer) (k : Nat) (s : State) (h : s.newOffers ps = []) :
    State.settle ps k s = s := by
  cases k with
  | zero => rfl
  | succ k => simp [State.settle, h]

/-- A line whose units have nothing new on offer just takes its new value. -/
theorem State.updateLine_of_no_offers (s : State) (n : LineNo) (l : Line)
    (h : (s.setLine n l).newOffers (lineProducers n) = []) : s.updateLine n l = s.setLine n l :=
  State.settle_of_no_offers _ _ _ h

/-- What a line has on offer depends on its mode and its four lists alone. -/
theorem State.newOffers_setLine (s : State) (n : LineNo) (l : Line) (hm : l.isPoll = (s.line n).isPoll)
    (hc : headResult l.control = headResult (s.line n).control)
    (ht : headResult l.tx.list = headResult (s.line n).tx.list)
    (hf : headResult l.filler.list = headResult (s.line n).filler.list)
    (hp : headResult l.poll.list = headResult (s.line n).poll.list) :
    (s.setLine n l).newOffers (lineProducers n) = s.newOffers (lineProducers n) := by
  simp [State.newOffers, lineProducers, State.onOffer, hm, hc, ht, hf, hp, List.filter_cons]

/-- One step of one line with nothing new on offer before or after it. -/
theorem State.updateLine_quiet (s : State) (n : LineNo) (l : Line) (h : s.newOffers (lineProducers n) = [])
    (hm : l.isPoll = (s.line n).isPoll)
    (hc : headResult l.control = headResult (s.line n).control)
    (ht : headResult l.tx.list = headResult (s.line n).tx.list)
    (hf : headResult l.filler.list = headResult (s.line n).filler.list)
    (hp : headResult l.poll.list = headResult (s.line n).poll.list) : s.updateLine n l = s.setLine n l :=
  State.updateLine_of_no_offers s n l (by rw [State.newOffers_setLine s n l hm hc ht hf hp, h])

/-- `onLine` answers a next state always: the line's step with its offers, or the state as it was. -/
theorem onLine_next (n : LineNo) (f : Line → Option Line) (s : State) :
    onLine n f s = .next ((f (s.line n)).elim s (s.updateLine n)) := by
  unfold onLine; cases f (s.line n) <;> rfl

/-- The end of a transfer of the wanted kind while no controller reset waits. -/
theorem State.endTransfer_acts (s : State) (k : TransferKind → Bool)
    (act : Transfer → State → Host.Outcome State Fault Refusal) (t : Transfer) (ht : s.port.inFlight = some t)
    (hk : k t.kind = true) (hr : s.ctl.resetWaits = false) : s.endTransfer k act = act t s.transferOver := by
  simp [State.endTransfer, ht, hk, hr]

/-! #### The backlog's bound -/

/-- An admission adds at most one entry. -/
theorem State.enterBacklog_entries_length (s : State) (p : Producer) :
    (s.enterBacklog p).backlog.entries.length ≤ s.backlog.entries.length + 1 := by
  have record (i : Slot) (r : Result) :
      (s.enterRecord i r).backlog.entries.length ≤ s.backlog.entries.length + 1 := by
    unfold State.enterRecord; split <;> simp
  have moves (t : State) (i : Slot) (r : Result) (p : Producer) : (t.producerMovesOn i r p).backlog = t.backlog := by
    cases p <;> simp only [State.producerMovesOn] <;> first | rfl | (split <;> rfl)
  unfold State.enterBacklog
  split
  · simp [State.enterEvent]
  · split
    · rw [moves]; exact record _ _
    · simp

/-- An offer never takes the backlog past its 32 slots (01 R17). -/
theorem State.offer_entries_length (s : State) (p : Producer) (h : s.backlog.entries.length ≤ Config.backlogSlots) :
    (s.offer p).backlog.entries.length ≤ Config.backlogSlots := by
  unfold State.offer
  split
  · next hs => exact Nat.le_trans (State.enterBacklog_entries_length s p) hs.1
  · exact h

/-- The offers of a moment never take the backlog past its 32 slots (01 R17). -/
theorem State.settle_entries_length (ps : List Producer) (k : Nat) (s : State)
    (h : s.backlog.entries.length ≤ Config.backlogSlots) :
    (State.settle ps k s).backlog.entries.length ≤ Config.backlogSlots := by
  induction k generalizing s with
  | zero => exact h
  | succ k ih =>
    unfold State.settle
    split
    · exact h
    · next c cs _ =>
      refine ih _ (State.offer_entries_length _ _ ?_)
      cases cs <;> exact h

/-! #### A completion that finds a slot free -/

/-- A record's completion that takes a slot: what the part holds after it (01 R6, R14, R17). -/
theorem State.enterRecord_of_entry (s : State) (i : Slot) (r : Result) (e : Entry) (h : s.entry i = some e) :
    s.enterRecord i r =
      State.leaveWaitSets
        { s with
          table := s.table.set i none
          backlog := { s.backlog with
            entries := s.backlog.entries ++ [.completion e.cq ((e.header.map Header.urgent).getD false)
              (e.completion r)] } } i := by
  simp [State.enterRecord, h]

/-- A slot is free for an offer made now: fewer than 32 are taken and nobody waits. -/
theorem State.offer_admitted (s : State) (p : Producer) (hl : s.backlog.entries.length < Config.backlogSlots)
    (hw : s.backlog.waiting = []) : s.offer p = s.enterBacklog p := by
  simp [State.offer, hl, hw]

/-- No slot is free, or others wait: the producer waits (01 R20). -/
theorem State.offer_waits (s : State) (p : Producer)
    (h : Config.backlogSlots ≤ s.backlog.entries.length ∨ s.backlog.waiting ≠ []) :
    s.offer p = { s with backlog := { s.backlog with waiting := s.backlog.waiting ++ [p] } } := by
  unfold State.offer
  split
  · next hs => exact absurd hs (by rcases h with h | h <;> simp_all; omega)
  · rfl

/-! #### Faults and resets -/

@[simp] theorem State.enterFaulted_pending (s : State) (c : FaultCode) (x : FaultSource) :
    (s.enterFaulted c x).pending = s.pending := rfl

@[simp] theorem State.enterFaulted_block (s : State) (c : FaultCode) (x : FaultSource) :
    (s.enterFaulted c x).block = s.block := rfl

@[simp] theorem State.takeReset_pending (s : State) (c : ResetCause) (a : Addr) (h : Bool) :
    (s.takeReset c a h).pending = s.pending := rfl

/-- A register write while the window takes writes (11 R183, R184). -/
theorem State.write_open (s : State) (f : Controller → State) (h : s.ctl.windowOpen = true) :
    s.write f = .next (f s.ctl) := by
  simp [State.write, h]

/-- A register write while the window ignores writes (11 R183, R184). -/
theorem State.write_closed (s : State) (f : Controller → State) (h : s.ctl.windowOpen = false) :
    s.write f = .next s := by
  simp [State.write, h]

end Sys2Proof.Machine
end

