-- ==== Sys2Proof/Laws/Completions.lean ====
section
/-! SUPPORT. How composed completions leave a line: one lemma for a record's completion, one for a line command's, and what
the offers of a moment never undo. -/

namespace Sys2Proof.Machine

/-! ### What the offers of a moment keep -/

/-- A producer's list moves on without touching the backlog (01 R20). -/
theorem State.producerMovesOn_backlog (s : State) (i : Slot) (r : Result) (p : Producer) :
    (s.producerMovesOn i r p).backlog = s.backlog := by
  cases p <;> simp only [State.producerMovesOn] <;> first | rfl | (split <;> rfl)

/-- A producer's list moves on without touching the request table. -/
theorem State.producerMovesOn_table (s : State) (i : Slot) (r : Result) (p : Producer) :
    (s.producerMovesOn i r p).table = s.table := by
  cases p <;> simp only [State.producerMovesOn] <;> first | rfl | (split <;> rfl)

/-- The backlog's entries so far stay where they are when a producer's entry enters. -/
theorem State.enterBacklog_entries_grow (s : State) (p : Producer) :
    ∃ more, (s.enterBacklog p).backlog.entries = s.backlog.entries ++ more := by
  have record (i : Slot) (r : Result) :
      ∃ more, (s.enterRecord i r).backlog.entries = s.backlog.entries ++ more := by
    unfold State.enterRecord; split
    · exact ⟨[], by simp⟩
    · exact ⟨_, rfl⟩
  unfold State.enterBacklog
  split
  · exact ⟨_, rfl⟩
  · split
    · rw [State.producerMovesOn_backlog]; exact record _ _
    · exact ⟨[], by simp⟩

/-- A free entry of the request table stays free when a producer's entry enters. -/
theorem State.enterBacklog_entry_none (s : State) (p : Producer) (i : Slot) (h : s.entry i = none) :
    (s.enterBacklog p).entry i = none := by
  have record (j : Slot) (r : Result) : (s.enterRecord j r).entry i = none := by
    unfold State.enterRecord
    split
    · exact h
    · simp only [State.entry, State.leaveWaitSets] at *
      by_cases hij : i = j
      · subst hij; simp
      · simpa [Fin.val_ne_of_ne (Ne.symm hij)] using h
  unfold State.enterBacklog
  split
  · exact h
  · split
    · simp only [State.entry, State.producerMovesOn_table]; exact record _ _
    · exact h

theorem State.pickOffer_same (s : State) (c : Producer) (cs : List Producer) :
    ∃ k, (s.pickOffer c cs).2 = { s with offersMade := k } := by
  cases cs <;> exact ⟨_, rfl⟩

/-- The offers of a moment add to the backlog behind what it holds. -/
theorem State.settle_entries_grow (ps : List Producer) (k : Nat) (s : State) :
    ∃ more, (State.settle ps k s).backlog.entries = s.backlog.entries ++ more := by
  induction k generalizing s with
  | zero => exact ⟨[], by simp [State.settle]⟩
  | succ k ih =>
    unfold State.settle
    split
    · exact ⟨[], by simp⟩
    · next c cs _ =>
      obtain ⟨j, hj⟩ := State.pickOffer_same s c cs
      obtain ⟨more, hm⟩ := ih ((s.pickOffer c cs).2.offer (s.pickOffer c cs).1)
      rw [hm, hj]
      unfold State.offer
      split
      · obtain ⟨x, hx⟩ := State.enterBacklog_entries_grow { s with offersMade := j } (s.pickOffer c cs).1
        exact ⟨x ++ more, by rw [hx, List.append_assoc]⟩
      · exact ⟨more, rfl⟩

/-- The offers of a moment take no entry of the request table into use. -/
theorem State.settle_entry_none (ps : List Producer) (k : Nat) (s : State) (i : Slot) (h : s.entry i = none) :
    (State.settle ps k s).entry i = none := by
  induction k generalizing s with
  | zero => exact h
  | succ k ih =>
    unfold State.settle
    split
    · exact h
    · next c cs _ =>
      obtain ⟨j, hj⟩ := State.pickOffer_same s c cs
      apply ih
      rw [hj]
      unfold State.offer
      split
      · exact State.enterBacklog_entry_none _ _ _ h
      · exact h

/-! ### One completion on offer -/

/-- A producer that waits is not offering anew; the others' offers are as they were. -/
theorem State.newOffers_withWaiting (s : State) (ps : List Producer) (p : Producer) :
    (s.withWaiting p).newOffers ps = (s.newOffers ps).filter fun q => q != p := by
  unfold State.newOffers
  rw [List.filter_filter]
  apply List.filter_congr
  intro q _
  have ho : (s.withWaiting p).onOffer q = s.onOffer q := by cases q <;> rfl
  rw [ho]
  by_cases hqp : q = p <;> simp [State.withWaiting, hqp, Bool.and_comm]

/-- The one new completion on offer waits where no slot is free for it, and that is all that happens (01 R20). -/
theorem State.settle_one_waits (ps : List Producer) (k : Nat) (s : State) (p : Producer)
    (hnew : s.newOffers ps = [p]) (hroom : ¬ s.hasRoom) : State.settle ps (k + 1) s = s.withWaiting p := by
  have hoffer : s.offer p = s.withWaiting p := by
    apply State.offer_waits
    by_cases hl : s.backlog.entries.length < Config.backlogSlots
    · exact .inr fun hw => hroom ⟨hl, hw⟩
    · exact .inl (by omega)
  unfold State.settle
  rw [hnew]
  simp only [State.pickOffer, hoffer]
  apply State.settle_of_no_offers
  rw [State.newOffers_withWaiting, hnew]
  simp

/-- The one new completion on offer takes the free slot, and its producer's list moves on (01 R17, R20). -/
theorem State.settle_one_enters (ps : List Producer) (k : Nat) (s : State) (p : Producer) (i : Slot) (r : Result)
    (hnew : s.newOffers ps = [p]) (hoff : s.onOffer p = some (i, r)) (hroom : s.hasRoom) :
    State.settle ps (k + 1) s = State.settle ps k ((s.enterRecord i r).producerMovesOn i r p) := by
  have henter : s.enterBacklog p = (s.enterRecord i r).producerMovesOn i r p := by
    cases p <;> simp [State.onOffer] at hoff <;> simp [State.enterBacklog, State.onOffer, hoff]
  conv_lhs => unfold State.settle
  rw [hnew]
  simp only [State.pickOffer]
  rw [State.offer_admitted _ _ hroom.1 hroom.2, henter]

/-- The one new completion on offer of a line's step is reported: it takes the next slot and frees its entry, or its producer
waits with it (01 R6, R17, R20). -/
theorem State.updateLine_completes (s : State) (n : LineNo) (l : Line) (p : Producer) (i : Slot) (r : Result)
    (hnew : (s.setLine n l).newOffers (lineProducers n) = [p]) (hoff : (s.setLine n l).onOffer p = some (i, r)) :
    s.Reports (s.updateLine n l) p i r := by
  refine ⟨fun hroom e he => ?_, fun hroom => ?_⟩
  · have hstep : s.updateLine n l = _ := State.settle_one_enters _ 191 _ p i r hnew hoff hroom
    have henter := State.enterRecord_of_entry (s.setLine n l) i r e he
    rw [hstep]
    constructor
    · apply State.settle_entry_none
      simp [State.entry, State.producerMovesOn_table, henter, State.leaveWaitSets]
    · obtain ⟨more, hm⟩ := State.settle_entries_grow (lineProducers n) 191
        (((s.setLine n l).enterRecord i r).producerMovesOn i r p)
      refine ⟨more, ?_⟩
      rw [hm, State.producerMovesOn_backlog, henter]
      simp [State.leaveWaitSets]
  · have hw : s.updateLine n l = (s.setLine n l).withWaiting p := State.settle_one_waits _ 191 _ _ hnew hroom
    rw [hw]
    refine ⟨rfl, ?_⟩
    rw [← hoff]
    cases p <;> rfl

/-- The rest of a control list, none of it ACTIVE or composed yet, has nothing on offer when it moves up (02 R31). -/
theorem headResult_activateHead (ms : List (Member LineCommand)) (h : ∀ x ∈ ms, x.phase = .listed) :
    headResult (activateHead ms) = none := by
  cases ms with
  | nil => rfl
  | cons x xs => simp [activateHead, h x (by simp), headResult]

/-- A command at the head that ends: its completion enters and the next command becomes ACTIVE, or the line control unit waits
with it (01 R20, 02 R31). `l` is the line with everything else the command did. -/
theorem State.command_ends (s : State) (n : LineNo) (m : Member LineCommand) (ms : List (Member LineCommand))
    (p : CommandProgress) (l : Line) (st : Status) (count : Nat) (detail : Word) (h : s.CommandAtHead n m ms p)
    (hc : l.control = (s.line n).control) (hd : (s.setLine n l).onOffer (.data n) = s.onOffer (.data n))
    (ht : headResult l.tx.list = headResult (s.line n).tx.list) :
    s.CommandEnds (s.updateLine n (l.finishCommand st count detail)) n m ms l
      { status := st, count := BitVec.ofNat 16 count, detail } := by
  have hl : l.finishCommand st count detail =
      { l with control := { m with phase := .finishing { status := st, count := BitVec.ofNat 16 count, detail } } :: ms,
               progress := .untaken } := by
    simp [Line.finishCommand, hc, h.head, finishHead]
  rw [hl]
  set r : Result := { status := st, count := BitVec.ofNat 16 count, detail } with hr
  have hoff (c : List (Member LineCommand)) (w : CommandProgress) (hw : headResult c = none ∨ .control n ∉ s.backlog.waiting) :
      (s.setLine n { l with control := c, progress := w }).newOffers (lineProducers n) =
        if headResult c = none then [] else [.control n] := by
    have hq := h.quiet
    have h1 : (s.setLine n { l with control := c, progress := w }).onOffer (.data n) = s.onOffer (.data n) := by
      rw [← hd]; simp [State.onOffer, Line.isPoll]
    have h2 : (s.setLine n { l with control := c, progress := w }).onOffer (.transmitter n) = s.onOffer (.transmitter n) := by
      simp [State.onOffer, ht]
    simp only [State.noNewOffers, State.newOffers, lineProducers, List.filter_eq_nil_iff, List.mem_cons,
      List.not_mem_nil, or_false, forall_eq_or_imp, forall_eq] at hq
    simp only [State.newOffers, lineProducers, List.filter_cons, h1, h2, State.setLine_backlog, hq.1, hq.2.1]
    by_cases hcn : headResult c = none
    · simp [State.onOffer, hcn]
    · rcases hw with hw | hw
      · exact absurd hw hcn
      · simp [State.onOffer, hcn, hw, Option.isSome_iff_ne_none]
  have hnew := hoff ({ m with phase := .finishing r } :: ms) .untaken (.inr h.notWaiting)
  simp only [headResult, reduceCtorEq, if_false] at hnew
  refine ⟨fun hroom e he => ?_, fun hroom => State.settle_one_waits _ 191 _ _ hnew hroom⟩
  have hstep := State.settle_one_enters _ 191 _ (.control n) m.slot r hnew (by simp [State.onOffer, headResult]) hroom
  show State.settle _ (191 + 1) _ = _
  rw [hstep, State.enterRecord_of_entry (s.setLine n _) m.slot r e he]
  have hend : State.producerMovesOn (State.leaveWaitSets
        { s.setLine n { l with control := { m with phase := .finishing r } :: ms, progress := .untaken } with
          table := s.table.set m.slot none
          backlog := { s.backlog with entries := s.backlog.entries ++
            [.completion e.cq ((e.header.map Header.urgent).getD false) (e.completion r)] } } m.slot) m.slot r (.control n)
      = (s.setLine n { l with control := activateHead ms, progress := .untaken }).withAdmitted m.slot e r := by
    simp [State.producerMovesOn, State.withAdmitted, State.leaveWaitSets, Line.commandEntered, State.setLine, State.line]
  refine (congrArg (State.settle (lineProducers n) 191) hend).trans ?_
  apply State.settle_of_no_offers
  have hnone := hoff (activateHead ms) .untaken (.inl (headResult_activateHead ms h.behind))
  simp only [headResult_activateHead ms h.behind, if_true] at hnone
  rw [← hnone]
  rfl

end Sys2Proof.Machine
end

