-- ==== Sys2Proof/Laws/Ends.lean ====
section
/-! SUPPORT. What an ABORT_LINE, DISABLE_LINE or STOP does to the units of a line and which entries it ends, what the admission
of a buffer's completion leaves, and when a unit requests the write of its assembly: one lemma for each shared operation. -/

namespace Sys2Proof.Machine

/-! ### Ends of records -/

theorem finishListed_eq {β : Type} (st : Status) (ms : List (Member β)) : finishListed st ms = endedBehind st ms := rfl

theorem finishHead_eq {β : Type} (r : Result) (ms : List (Member β)) : finishHead r ms = completedHead r ms := by
  cases ms <;> rfl

/-! ### Write assemblies -/

theorem assemblyHasRoom_iff (a : List Byte) (base : Addr) (offset : Nat) :
    assemblyHasRoom a base offset = true ↔ a.length < 16 ∧ (a = [] ∨ (base.toNat + offset) % 32 ≠ 0) := by
  unfold assemblyHasRoom Config.assemblySize Config.boundary
  rw [Bool.and_eq_true, decide_eq_true_iff, Bool.or_eq_true, List.isEmpty_iff, bne_iff_ne]

/-- When the filler requests its write, and the write (04 R75). -/
theorem Line.requestBufferWrite_spec (l : Line) :
    l.requestBufferWrite =
      if l.filler.outstanding = none ∧ l.filler.assembly ≠ [] ∧
          (l.filler.hasRoom = false ∨ l.rx.fifo = [] ∨ l.filler.state = .closing) then
        { l with filler := { l.filler with
          outstanding := some (assemblyWrite l.filler.assembly l.filler.headBuffer.address l.filler.fill), assembly := [] } }
      else l :=
  if_congr (by simp [and_assoc, or_assoc]) rfl rfl

/-- When the poll engine requests its write, and the write (06 R118). -/
theorem Line.requestReplyWrite_spec (l : Line) :
    l.requestReplyWrite =
      if l.poll.outstanding = none ∧ l.poll.assembly ≠ [] ∧
          (l.poll.hasRoom = false ∨ l.rx.fifo = [] ∨ l.poll.attempt = .settle) then
        { l with poll := { l.poll with
          outstanding := some (assemblyWrite l.poll.assembly l.poll.headPoll.replyAddress l.poll.fill), assembly := [] } }
      else l :=
  if_congr (by simp [and_assoc, or_assoc]) rfl rfl

/-! ### The units of a line -/

theorem Transmitter.reached_iff (t : Transmitter) : t.reached = true ↔ t.HasCurrent := by
  simp [Transmitter.reached, Transmitter.HasCurrent, Option.isSome_iff_ne_none]

theorem Filler.reached_iff (f : Filler) : f.reached = true ↔ f.HasCurrent := by
  simp [Filler.reached, Filler.HasCurrent]

theorem PollEngine.reached_iff (p : PollEngine) : p.reached = true ↔ p.HasCurrent := by
  simp only [PollEngine.reached, PollEngine.carrying, PollEngine.HasCurrent]
  rcases p.list with _ | ⟨⟨i, ph, b⟩, ms⟩
  · simp [headResult]
  · cases ph <;> simp [headResult]

/-- The entries a unit of the line counts, from its own test `b` of whether it has a current record to end. -/
theorem endedSlots_of {β : Type} {b : Bool} {current : Prop} (h : b = true ↔ current) (ms : List (Member β)) :
    EndedSlots current ms ((if b = true then (ms.take 1).map Member.slot else []) ++ listedSlots ms) :=
  ⟨fun hc => by simp [h.mpr hc, listedSlots], fun hc => by simp [mt h.mp hc, listedSlots]⟩

theorem Line.reachedSends_spec (l : Line) : EndedSlots l.tx.HasCurrent l.tx.list l.reachedSends :=
  endedSlots_of l.tx.reached_iff _

theorem Line.reachedBuffers_spec (l : Line) : EndedSlots l.filler.HasCurrent l.filler.list l.reachedBuffers :=
  endedSlots_of l.filler.reached_iff _

theorem Line.reachedPolls_spec (l : Line) : EndedSlots l.poll.HasCurrent l.poll.list l.reachedPolls :=
  endedSlots_of l.poll.reached_iff _

@[simp] theorem Line.nextBuffer_progress (l : Line) : l.nextBuffer.progress = l.progress := by
  unfold Line.nextBuffer; split <;> split <;> rfl
@[simp] theorem Line.nextBuffer_control (l : Line) : l.nextBuffer.control = l.control := by
  unfold Line.nextBuffer; split <;> split <;> rfl
@[simp] theorem Line.nextBuffer_rx (l : Line) : l.nextBuffer.rx = l.rx := by
  unfold Line.nextBuffer; split <;> split <;> rfl
@[simp] theorem Line.nextBuffer_flush (l : Line) : l.nextBuffer.filler.flush = l.filler.flush := by
  unfold Line.nextBuffer; split <;> split <;> rfl

theorem markNewest_concat (m : CloseMark) (es : List Staged) (e : Staged) :
    markNewest m (es ++ [e]) = es ++ [{ e with close := some m }] := by
  induction es with
  | nil => rfl
  | cons x xs ih => cases xs <;> simp_all [markNewest]

/-- What the RX buffer list and the filler are when the head buffer has left (04 R66, R67, R78, R79). -/
theorem Line.nextBuffer_left (l : Line) : l.BufferLeft l.nextBuffer := by
  unfold Line.BufferLeft Line.nextBuffer
  refine ⟨fun ht hf => ?_, fun ht hf => ?_, fun b bs hl => ⟨fun hb => ?_, fun hb => ?_⟩⟩
  · simp [ht, hf, Filler.fresh]
  · simp [ht, hf, Filler.fresh, raise, Condition.bit]
  · simp [hl, hb, Filler.fresh, activateHead]
  · simp [hl, hb, Filler.fresh]

/-- A line has one state after its head buffer has left. -/
theorem Line.BufferLeft.unique {l w : Line} (h : l.BufferLeft w) : w = l.nextBuffer := by
  have k := l.nextBuffer_left
  cases ht : l.filler.list.tail with
  | nil =>
    by_cases hf : l.rx.fifo = []
    · rw [h.1 ht hf, k.1 ht hf]
    · rw [h.2.1 ht hf, k.2.1 ht hf]
  | cons b bs =>
    by_cases hb : b.phase = .listed
    · rw [(h.2.2 b bs ht).1 hb, (k.2.2 b bs ht).1 hb]
    · rw [(h.2.2 b bs ht).2 hb, (k.2.2 b bs ht).2 hb]

/-- The transmitter of a STREAM line that an ABORT_LINE or DISABLE_LINE reaches; the rest of the line stays. -/
theorem Line.endSends_spec (l : Line) (st : Status) (h : l.isPoll = false) :
    l.tx.EndedAs (l.endSends st).tx st ∧ l.endSends st = { l with tx := (l.endSends st).tx } := by
  unfold Line.endSends Transmitter.EndedAs Transmitter.HasCurrent Transmitter.reached
  cases hj : l.tx.job <;> cases he : l.tx.endCause <;> cases ho : l.tx.outstanding <;> cases hs : l.tx.state <;>
    simp_all [Line.abortCharacters, Line.stopCharacters, Line.composeSend, Line.isPoll, Transmitter.jobOver,
      Transmitter.sendResult, Transmitter.withoutRecord, Transmitter.stopped, finishHead_eq, finishListed_eq]

/-- The buffer filler that an ABORT_LINE, DISABLE_LINE or STOP reaches; the rest of the line stays. -/
theorem Line.endBuffers_spec (l : Line) (st : Status) :
    l.filler.EndedAs (l.endBuffers st).filler st ∧ l.endBuffers st = { l with filler := (l.endBuffers st).filler } := by
  unfold Line.endBuffers Filler.EndedAs Filler.HasCurrent Filler.reached
  rcases hl : l.filler.list with _ | ⟨m, ms⟩ <;> cases he : l.filler.endStatus <;> cases ho : l.filler.outstanding <;>
    cases ha : l.filler.assembly <;> cases hs : l.filler.state <;>
    simp_all [Line.requestBufferWrite, Line.composeBuffer, Line.offerBuffer, assemblyWrite, Filler.headBuffer,
      finishHead_eq, finishListed_eq, endedBehind] <;> split <;> rfl

/-- A POLL line in SETTLE whose current record's end is decided by an ABORT_LINE or DISABLE_LINE. -/
theorem Line.composePoll_cut {w k : Line} {st : Status} (h : st = .aborted ∨ st = .lineDisabled)
    (hs : w.poll.attempt = .settle)
    (hk : k = Line.composePoll { w with poll := { w.poll with endStatus := some st } }) : w.RecordCutAs k st := by
  subst hk
  unfold Line.RecordCutAs Line.composePoll
  refine ⟨fun hn => ?_, fun ⟨ha, ho, ht⟩ m ms hl => ?_⟩
  · exact if_neg fun hc => hn hc.2
  · rcases hb : m.body with b | b <;>
      rcases h with rfl | rfl <;>
      simp_all [Line.pollResult, PollEngine.headWork, PollEngine.reported, finishHead, Transmitter.jobOver,
        Transmitter.withoutRecord, Transmitter.sendResult]

/-- The POLL line whose engine an ABORT_LINE or DISABLE_LINE reaches. -/
theorem Line.endPolls_spec (l : Line) (st : Status) (h : st = .aborted ∨ st = .lineDisabled) (hp : l.isPoll = true) :
    l.PollsEndedAs (l.endPolls st) st := by
  have hc := PollEngine.reached_iff l.poll
  refine ⟨fun hn => ?_, fun hy => ?_⟩
  · have hr : l.poll.reached = false := by simpa using fun hr => hn (hc.mp hr)
    simp [Line.endPolls, hr, finishListed_eq]
  · have hr := hc.mpr hy
    have he : l.poll.endStatus = none := hy.2.1
    have hl : l.endPolls st = Line.cutAttempt { l with poll := { l.poll with list := endedBehind st l.poll.list } } st := by
      simp [Line.endPolls, hr, finishListed_eq]
    refine ⟨fun ha => ?_, fun ha ht => ?_, fun ha ht => ?_, fun ha => ⟨fun hw => ?_, fun hw => ?_⟩, fun ha => ?_⟩
    · refine Line.composePoll_cut h rfl ?_
      simp_all [Line.cutAttempt, PollEngine.decideEnd]
    · simp_all [Line.cutAttempt, Line.abortCharacters, PollEngine.decideEnd]
    · refine Line.composePoll_cut h rfl ?_
      cases hst : l.state <;>
      simp_all [Line.cutAttempt, Line.abortCharacters, PollEngine.decideEnd, Line.stopCharacters,
        Line.pollWorkEnded, Line.releaseDriver, Line.rxHunt, Transmitter.stopped, Line.isPoll] <;> rfl
    · refine Line.composePoll_cut h rfl ?_
      simp only at ha hw
      have hn : (l.poll.outstanding.isNone && !l.poll.assembly.isEmpty) = false := by
        cases ho : l.poll.outstanding <;> cases hb : l.poll.assembly <;> simp_all
      rcases ha with ha | ha | ha <;>
      simp [hl, ha, hn, he, Line.cutAttempt, Line.requestReplyWrite, PollEngine.decideEnd, Line.closeWindow,
        PollEngine.stopTimers, Line.discardStaged]
    · refine Line.composePoll_cut h rfl ?_
      simp only at ha hw
      have hn : (l.poll.outstanding.isNone && !l.poll.assembly.isEmpty) = true := by
        cases hb : l.poll.assembly <;> simp_all
      rcases ha with ha | ha | ha <;>
      simp [hl, ha, hn, he, Line.cutAttempt, Line.requestReplyWrite, PollEngine.decideEnd, Line.closeWindow,
        PollEngine.stopTimers, Line.discardStaged, assemblyWrite, PollEngine.headPoll, PollEngine.headWork]
    · refine Line.composePoll_cut h ha ?_
      simp_all [Line.cutAttempt, PollEngine.decideEnd]

end Sys2Proof.Machine
end

