-- ==== Sys2Proof/Tests/Slice0.lean ====
section
/-! SUPPORT. Tests of the model on fixed values (each names the table or rule of the spec its expected values come from), and
one witness for every statement that has hypotheses: states and operands that meet them. -/

namespace Sys2Proof.Tests

open Sys2Proof.Machine

set_option Elab.async false

/-! ### Helpers -/

/-- The state after a command. -/
def after (c : Instr) (s : State) : State :=
  match exec c s with
  | .next t => t
  | _ => s

/-- The state with the controller in the state given. -/
def inState (c : ControllerState) (s : State) : State := { s with ctl := { s.ctl with state := c } }

/-- A loaded block: SQ0 of 4 slots, SQ1 and SQ3 of 64, SQ2 unused; CQ0 to CQ2 of 4 slots, CQ3 unused. -/
def block : Block :=
  { sqs := #v[⟨0x81000, 4, 0, 2⟩, ⟨0x91000, 64, 2, 1⟩, ⟨0, 0, 0, 0⟩, ⟨0xA1000, 64, 0, 3⟩]
    cqs := #v[⟨0x82000, 4, .one, true, 8, 4⟩, ⟨0x92000, 4, .three, true, 1, 0⟩, ⟨0xA2000, 4, .three, true, 4, 0⟩,
      ⟨0, 0, .one, false, 0, 0⟩] }

/-- The part in RUNNING with that block. -/
def running : State := inState .running { State.reset with block := some block }

/-- A full backlog. -/
def crowded (s : State) : State := { s with backlog := { s.backlog with entries := List.replicate 32 (.event 3 15) } }

/-- A table entry of a record from SQ0. -/
def entry : Entry := { sq := 0, cq := 0, header := some { tag := 7, kind := 0x10, line := some 2, urgent := false } }

/-- Line 2 with the value given, every record it holds in the request table. -/
def holding (l : Line) : State :=
  { running with
    lines := running.lines.set 2 l
    table := Vector.ofFn fun i => if i ∈ l.heldSlots then some entry else none }

/-- The state with transfer `k` in flight. -/
def carrying (s : State) (k : TransferKind) (x : Extent) : State :=
  { s with port := { s.port with inFlight := some { kind := k, extent := x } } }

/-- Four bytes at 4000H. -/
def four : Extent := { address := 0x4000, size := 4, bytes := [] }

/-- STREAM, 8 data bits, no parity, 1 stop bit. -/
def stream8 : LineRecord :=
  { LineRecord.unconfigured with configured := true, dataBits := .eight, divisor := 23, enable := 0b11111#5 }

/-- POLL, 9 data bits. -/
def poll9 : LineRecord :=
  { LineRecord.unconfigured with configured := true, mode := .poll, dataBits := .nine, guardTime := 3, divisor := 23,
                                 enable := 0b01000#5 }

/-- An ENABLED line of a record, its receiver in HUNT. -/
def enabled (r : LineRecord) : Line :=
  { Line.rest with record := r, state := .enabled, rate := some 24, rx := { Receiver.rest with state := .hunt } }

/-- A line whose control list has one command at its head. -/
def commanded (l : Line) (c : LineCommand) (p : CommandProgress) : Line :=
  { l with control := [{ slot := 1, phase := .active, body := c }], progress := p }

/-- A staged character. -/
def char (v : Byte) : Staged := { value := v, mark := false, framing := false, parity := false, brk := false, close := none }

/-- The bytes of an SQ descriptor (08 Table 8.1). -/
def sqBytes (base size cq weight : Nat) : List Byte :=
  leBytes 8 base ++ leBytes 2 size ++ [BitVec.ofNat 8 cq, BitVec.ofNat 8 weight] ++ leBytes 4 0

/-- The bytes of a CQ descriptor (08 Table 8.2). -/
def cqBytes (base size level notify threshold delay : Nat) : List Byte :=
  leBytes 8 base ++ leBytes 2 size ++
    [BitVec.ofNat 8 level, BitVec.ofNat 8 notify, BitVec.ofNat 8 threshold, BitVec.ofNat 8 delay] ++ leBytes 2 0

/-- Start-up example, chapter 11.7; the CQ0 size is a parameter. -/
def startUp (size : Nat) : List Byte :=
  sqBytes 0x81000 64 0 4 ++ sqBytes 0 0 0 0 ++ sqBytes 0 0 0 0 ++ sqBytes 0 0 0 0 ++
    cqBytes 0x82000 size 2 1 4 8 ++ cqBytes 0 0 0 0 0 0 ++ cqBytes 0 0 0 0 0 0 ++ cqBytes 0 0 0 0 0 0

/-- A record of 32 bytes, zeros at its end. -/
def record (xs : List Byte) : Record := Vector.ofFn fun i => xs.getD i.val 0

theorem holding_line (l : Line) : (holding l).line 2 = l := by simp [holding, State.line]

/-! ### Well-formed commands -/

theorem test_unknown_command_codes :
    (Instr.controlUnknownCommand 0).wellFormed = true ∧ (Instr.controlUnknownCommand 0x104).wellFormed = true ∧
    (Instr.controlUnknownCommand 1).wellFormed = false ∧ (Instr.controlUnknownCommand 0xFF02).wellFormed = false ∧
    (Instr.controlUnknownCommand 3).wellFormed = false := by decide

theorem test_data_read_lengths :
    (Instr.txDataReadEnd 0 (.ok [1]) true).wellFormed = true ∧
    (Instr.txDataReadEnd 0 (.ok (List.replicate 16 1)) true).wellFormed = true ∧
    (Instr.txDataReadEnd 0 (.ok []) true).wellFormed = false ∧
    (Instr.txDataReadEnd 0 (.ok (List.replicate 17 1)) true).wellFormed = false := by decide

theorem test_lanes :
    (Instr.claim 0b0110#4).wellFormed = true ∧ (Instr.claim 0).wellFormed = false ∧
    (Instr.registerWriteIgnored (.partialWord 1 0b0111#4 5)).wellFormed = true ∧
    (Instr.registerWriteIgnored (.partialWord 1 0 5)).wellFormed = false ∧
    (Instr.registerWriteIgnored (.partialWord 1 0b1111#4 5)).wellFormed = false := by decide

/-! ### The register window (11 Table 11.5, R185, R186) -/

theorem test_control_writes :
    registerWrite 1 0x00000001 = .start 0 ∧ registerWrite 1 0x00000102 = .stop 1 ∧
    registerWrite 1 0xFFFFFF03 = .reset 0xFFFFFF ∧ registerWrite 1 0 = .controlUnknownCommand 0 ∧
    registerWrite 1 4 = .controlUnknownCommand 4 := by decide

theorem test_other_writes :
    registerWrite 0 5 = .registerWriteIgnored (.readOnly .ident 5) ∧ registerWrite 2 5 = .statusWrite 5 ∧
    registerWrite 3 5 = .qbaseLoWrite 5 ∧ registerWrite 4 5 = .qbaseHiWrite 5 ∧ registerWrite 5 5 = .post 5 ∧
    registerWrite 6 5 = .release 5 ∧ registerWrite 7 5 = .registerWriteIgnored (.readOnly .claim 5) ∧
    registerWrite 8 5 = .endserv 5 ∧ registerWrite 9 5 = .registerWriteIgnored (.readOnly .inservice 5) ∧
    registerWrite 10 5 = .registerWriteIgnored (.unassigned 0 5) ∧
    registerWrite 15 5 = .registerWriteIgnored (.unassigned 5 5) := by decide

/-- Table 11.13 step 1: IDENT and STATUS after a device reset; last reset cause POWER (code 0). (Bits 8 to 9 of STATUS:
notes/assumptions/33.md.) -/
theorem test_startup_reads :
    readRegister State.reset.ctl 0 0 = 0x3E416001#32 ∧ readRegister State.reset.ctl 0 2 = 0#32 := by decide

/-- 11 R185: the lower three bytes of IDENT; a write of three bytes is ignored, of four the register's. -/
theorem test_lane_access :
    readLanes State.reset.ctl 0 0 0b0111#4 = 0x00416001#32 ∧
    registerWriteLanes 5 0b1110#4 7 = .registerWriteIgnored (.partialWord 5 0b1110#4 7) ∧
    registerWriteLanes 5 0b1111#4 7 = .post 7 := by decide

/-- Table 11.13 steps 2 and 3. -/
theorem test_post_in_stopped : (after (.post 0) State.reset).ctl.misplacedWrite = true := by decide
theorem test_status_write : (after (.statusWrite 0x10000) (after (.post 0) State.reset)).ctl.misplacedWrite = false := by
  decide
theorem test_qbase_write : (after (.qbaseLoWrite 0x0008007F) State.reset).ctl.qbase = 0x80000#40 := by decide
theorem test_qbase_high : (after (.qbaseHiWrite 0xFFFFFF12) State.reset).ctl.qbase = 0x1200000000#40 := by decide

/-- Table 11.13 step 4: the first descriptor read, 32 bytes at QBASE. -/
theorem test_start :
    let s := after (.start 0) (after (.qbaseLoWrite 0x80000) State.reset)
    s.ctl.state = .loading ∧
      s.fetcher.outstanding = some { kind := .descriptorRead 0, extent := { address := 0x80000, size := 32, bytes := [] } } := by
  decide

/-- 11 R179, R181: STOP in LOADING waits for the read; STOP in RUNNING with nothing to drain stops at once. -/
theorem test_stop : (after (.stop 0) (inState .loading running)).ctl.loadEnding = true ∧
    (after (.stop 0) running).ctl.state = .stopped := by decide +kernel

/-- 11 R186: RANGE_ERROR for an unknown command code. -/
theorem test_unknown_command : (after (.controlUnknownCommand 9) running).ctl.rangeError = true := by decide +kernel

/-- 11 R183: while RESET waits for a transfer, a POST sets no flag; taken, QBASE stays and the cause is CONTROL. -/
theorem test_reset_waits :
    let s := after (.reset 0) (carrying running (.completionWrite 0) four)
    (after (.post 0xFFFF) s).ctl.rangeError = false ∧ after .controllerResetTake s = s := by decide +kernel
theorem test_reset_taken :
    let s := after .controllerResetTake (after (.reset 0) { running with ctl := { running.ctl with qbase := 0x80 } })
    s.ctl.state = .stopped ∧ s.ctl.cause = .control ∧ s.ctl.qbase = 0x80 ∧ s.block = none := by decide +kernel

/-- 11 R184: RESETn low cuts the transfer and zeroes the registers; its rise leaves cause POWER and QBASE 0. -/
theorem test_device_reset :
    let s := after .deviceResetAssert { running with ctl := { running.ctl with qbase := 0x80 } }
    readRegister s.ctl 0 0 = 0 ∧ (after .deviceResetRelease s).ctl.qbase = 0 ∧
      (after .deviceResetRelease s).ctl.cause = .power := by decide +kernel

/-- 11 R185: a partial write, and a write to IDENT, change nothing. -/
theorem test_ignored_writes :
    after (.registerWriteIgnored (.partialWord 1 0b0111#4 1)) running = running ∧
      after (registerWrite 0 1) running = running := by decide +kernel

/-! ### Rings (chapter 8) -/

/-- SQ0 with its fetch head and posted tail. -/
def posted (head tail : Nat) : State :=
  { running with fetcher := { running.fetcher with rings := running.fetcher.rings.set 0 { head, tail } } }
/-- 8.5.1: with three records posted a POST with tail 0 would leave 0 posted and is refused; head 3, tail 1 posts 2. -/
theorem test_post : (after (.post 0) (posted 0 3)).ctl.rangeError = true ∧
    (after (.post 1) (posted 3 3)).fetcher.rings[0].tail = 1 := by decide +kernel
theorem test_post_range : (after (.post 4) (posted 0 0)).ctl.rangeError = true ∧
    (after (.post 0x20000) (posted 0 0)).ctl.rangeError = true := by decide +kernel

/-- CQ2 with its tail and occupancy, lap 0. -/
def occupied (tail occupancy : Nat) : State :=
  { running with writer := { running.writer with rings := running.writer.rings.set 2 { tail, lap := false, occupancy } } }
/-- Table 8.5 steps 2, 6 and 8. -/
theorem test_release : (after (.release 0x20003) (occupied 3 3)).writer.rings[2].occupancy = 0 ∧
    (after (.release 0x20003) (occupied 3 4)).writer.rings[2].occupancy = 0 := by decide +kernel
theorem test_release_refused : (after (.release 0x20001) (occupied 0 1)).ctl.rangeError = true ∧
    (after (.release 0x20001) (occupied 0 1)).writer.rings[2].occupancy = 1 := by decide +kernel

/-- An entry of CQ `q` alone in the backlog, its write in flight. -/
def writing (s : State) (q : CqNo) (e : BacklogEntry) : State :=
  carrying { s with backlog := { s.backlog with entries := [e] } } (.completionWrite q) four
/-- A completion in the backlog. -/
def done (urgent : Bool) (q : CqNo) : BacklogEntry :=
  .completion q urgent { tag := 7, kind := 1, status := .ok, line := 0, sq := 1, count := 0, detail := 0 }
/-- Table 8.5 steps 3 and 7: the write of the last slot wraps the tail and changes the lap bit. -/
theorem test_completion_write_wraps :
    (after (.completionWriteEnd .ok) (writing (occupied 3 0) 2 (done false 2))).writer.rings[2] =
      { tail := 0, lap := true, occupancy := 1 } := by decide +kernel

/-- 08 R143, R148: the turn passes from SQ3 (reset) to SQ0 with weight 2; the writer from CQ3 to CQ0. -/
theorem test_fetch_issue :
    let s := after .fetchIssue (posted 1 3)
    s.fetcher.turn = 0 ∧ s.fetcher.credit = 1 ∧ s.fetcher.outstanding =
      some { kind := .recordFetch 0 0, extent := { address := 0x81020, size := 32, bytes := [] } } := by decide +kernel
theorem test_writer_take :
    (after .writerTakeEntry { occupied 1 2 with
      backlog := { running.backlog with entries := [done false 2] } }).writer.outstanding =
      some { kind := .completionWrite 2,
             extent := { address := 0xA2010, size := 16, bytes := [7, 0, 1, 0, 0x10, 0, 0, 0, 0, 0, 0, 0, 0, 0, 0, 0] } } := by
  decide +kernel

/-- 11.7: the block of the example is valid; with CQ0 of 2 slots it is invalid, source CQ0 (Table 11.13). -/
theorem test_examine :
    (∃ b, examine (startUp 128) = .valid b ∧ b.sqs[(0 : SqNo)].size = 64 ∧ b.cqs[(0 : CqNo)].threshold = 4) ∧
      examine (startUp 2) = .invalid (.cq 0) := by
  refine ⟨⟨_, rfl, ?_⟩, ?_⟩ <;> decide +kernel
/-- The fourth descriptor read in flight. -/
def lastRead (size : Nat) : State :=
  carrying { inState .loading State.reset with
    fetcher := { State.reset.fetcher with kept := (startUp size).take 96 } } (.descriptorRead 3) four
theorem test_block_read :
    (after (.descriptorReadEnd (.ok (record ((startUp 128).drop 96)))) (lastRead 128)).ctl.state = .running ∧
    (after (.descriptorReadEnd (.ok (record ((startUp 2).drop 96)))) (lastRead 2)).ctl.faultSource = .cq 0 := by
  decide +kernel
theorem test_descriptor_bus_error :
    (after (.descriptorReadEnd .busError) (lastRead 128)).ctl.faultCode = .descriptorRead := by decide +kernel

/-! ### Dispatch (chapter 1) -/

/-- 1.3.1: an unknown kind with line byte 20H is BAD_KIND; a known one BAD_LINE; a POLL to a DISABLED STREAM line
LINE_DISABLED. -/
theorem test_validation_order :
    verdict (some block) State.reset.lines (record [0x55, 0, 0x20]).toList = .refused .badKind none ∧
    verdict (some block) State.reset.lines (record [2, 0, 0x20]).toList = .refused .badLine none ∧
    verdict (some block) State.reset.lines (record [2, 2, 3]).toList = .refused .badField (some 3) := by decide +kernel
theorem test_poll_to_disabled_line :
    verdict (some block) (State.reset.lines.set 2 { Line.rest with record := stream8 })
      (record [0x13, 0, 2, 0, 0, 0, 0, 0, 0x2C, 0x11, 1, 1]).toList = .refused .lineDisabled (some 2) := by decide +kernel

/-- A record fetch from SQ0 in flight, for entry 0. -/
def fetching (s : State) : State :=
  carrying { s with table := s.table.set 0 (some { sq := 0, cq := 0, header := none }) } (.recordFetch 0 0) four
/-- 01 R14, R15: a FENCE of an SQ with no other record in the table has an empty wait set. -/
theorem test_fence :
    let s := after (.recordFetchEnd (.ok (record [7, 0, 0, 0, 9]))) (fetching (posted 0 2))
    s.fences[0] = some { slot := 0, waitSet := [], count := 0 } ∧
      (after (.fenceWaitSetEmpty 0) s).backlog.entries =
        [.completion 0 false { tag := 9, kind := 7, status := .ok, line := 0, sq := 0, count := 0, detail := 0 }] := by
  decide +kernel
theorem test_fetch_bus_error :
    (after (.recordFetchEnd .busError) (fetching running)).ctl.faultSource = .sq 0 := by decide +kernel

/-- The dispatcher, line control unit 9 and transmitter 5 wait; event unit 1 was granted last (Table 1.9). -/
def waitingThree : State :=
  { running with
    dispatched := [(1, ⟨.badField, 0, 0⟩)]
    lines := (running.lines.set 5 { enabled stream8 with tx := { Transmitter.rest with
        list := [⟨2, .finishing ⟨.ok, 6, 6⟩, ⟨0x20001A40, 6, 0, 0, false, 0⟩⟩] } }).set 9
      { enabled stream8 with control := [⟨3, .finishing ⟨.ok, 32, 0⟩, .query 0⟩] }
    table := ((running.table.set 1 (some entry)).set 2 (some entry)).set 3 (some entry)
    backlog := { entries := [], waiting := [.dispatcher, .control 9, .transmitter 5], lastGranted := .event 1 } }
/-- 01 R21, Table 1.9 step 7: from position 10, position 25 (transmitter of line 5) is granted before 39 and 1. -/
theorem test_backlog_grant :
    let s := after .backlogGrant waitingThree
    s.backlog.lastGranted = .transmitter 5 ∧ s.backlog.waiting = [.dispatcher, .control 9] ∧ s.entry 2 = none := by
  decide +kernel
theorem test_positions : Producer.position .dispatcher = 1 ∧ Producer.position (.transmitter 5) = 25 ∧
    Producer.position (.control 9) = 39 ∧ Producer.position (.event 1) = 10 := by decide

/-- Line 2 has a write and a read, the fetcher and the report writer a request each. -/
def portWaiting : State :=
  { holding { enabled stream8 with filler := { Filler.rest with outstanding := some four }
                                   tx := { Transmitter.rest with outstanding := some four } } with
    reports := [{ line := 12, extent := four }]
    fetcher := { running.fetcher with outstanding := some { kind := .recordFetch 0 0, extent := four } } }
/-- Table 10.4: a line presents its write before its read; after position 9 the report writer (18) comes before the
fetcher. -/
theorem test_port_order :
    (after .portGrant { portWaiting with port := { inFlight := none, last := .line 7 } }).port.last = .report ∧
    (after .portGrant { portWaiting with port := { inFlight := none, last := .fetcher } }).port =
      { inFlight := some { kind := .rxBufferWrite 2, extent := four }, last := .line 2 } := by decide +kernel

/-! ### Notification (Table 9.5) -/

/-- The notification items of CQ0 to CQ2 and the in-service set. -/
def noted (c0 c1 c2 : CqNotice) (set : BitVec 5) : State :=
  { running with notice := { running.notice with cqs := #v[c0, c1, c2, ⟨0, none, false⟩], inService := set } }
/-- Steps 2, 3 and 5. -/
theorem test_delay_timer : (after (.delayTimerExpire 0) (noted ⟨3, some 4, false⟩ ⟨0, none, false⟩ ⟨0, none, false⟩ 0)).notice.pin
    = true := by decide +kernel
theorem test_claim :
    let s := after (.claim .word) (noted ⟨3, none, true⟩ ⟨0, none, false⟩ ⟨0, none, false⟩ 0)
    s.ctl.busWord = 0x00010310#32 ∧ s.notice.inService = 0b00001#5 ∧ s.notice.cqs[0] = ⟨0, none, false⟩ := by decide +kernel
/-- 11 R185: a read of the middle half is a CLAIM read. -/
theorem test_claim_of_a_half :
    let s := after (.claim 0b0110#4) (noted ⟨3, none, true⟩ ⟨0, none, false⟩ ⟨0, none, false⟩ 0)
    s.ctl.busWord = 0x00010300#32 ∧ s.notice.inService = 0b00001#5 := by decide +kernel
theorem test_nested_claim :
    let s := after (.claim .word) (noted ⟨2, some 4, true⟩ ⟨1, none, true⟩ ⟨1, none, true⟩ 1)
    s.ctl.busWord = 0x00010131#32 ∧ s.notice.inService = 0b00101#5 ∧ s.notice.pin = false := by decide +kernel
/-- Steps 8 and 14. -/
theorem test_endserv :
    let s := after (.endserv 99) (noted ⟨2, none, true⟩ ⟨1, none, true⟩ ⟨0, none, false⟩ 0b00101#5)
    s.notice.inService = 0b00001#5 ∧ s.notice.pin = true := by decide +kernel
theorem test_endserv_empty : after (.endserv 0) running = running := by decide +kernel
/-- Step 4: an URGENT completion sets its CQ's flag below K. -/
theorem test_urgent :
    let s := after (.completionWriteEnd .ok) (writing (noted ⟨0, none, false⟩ ⟨0, none, false⟩ ⟨0, none, false⟩ 1) 2 (done true 2))
    s.notice.cqs[2] = ⟨1, none, true⟩ ∧ s.notice.pin = true := by decide +kernel
theorem test_completion_bus_error :
    (after (.completionWriteEnd .busError) (writing running 1 (done false 1))).ctl.faultSource = .cq 1 := by decide +kernel

/-! ### Line commands (chapter 2) -/

/-- The statuses, counts and details of the completions in the backlog. -/
def results (s : State) : List (Status × Nat × Nat) :=
  s.backlog.entries.filterMap fun e => match e with
    | .completion _ _ c => some (c.status, c.count.toNat, c.detail.toNat)
    | .event _ _ => none

/-- Table 11.13 step 7. -/
theorem test_configure :
    let s := after (.configureLine 2) (holding (commanded Line.rest (.configure stream8) .untaken))
    (s.line 2).record = stream8 ∧ results s = [(.ok, 0, 0)] := by decide +kernel
theorem test_enable :
    let s := after (.enableLine 2) (holding (commanded { Line.rest with record := stream8 } .enable .untaken))
    (s.line 2).state = .enabled ∧ (s.line 2).rate = some 24 ∧ (s.line 2).rts = true ∧ results s = [(.ok, 0, 0)] := by
  decide +kernel
/-- Table 2.8: ENABLE_LINE on an unconfigured line. -/
theorem test_enable_unconfigured :
    results (after (.enableLine 2) (holding (commanded Line.rest .enable .untaken))) = [(.badState, 0, 0)] := by decide +kernel
/-- Table 2.12 steps 1 and 5. -/
theorem test_disable :
    let s := after (.disableLine 2) (holding (commanded (enabled stream8) .disable .untaken))
    (s.line 2).state = .disabling ∧ (s.line 2).rx.state = .off := by decide +kernel
theorem test_disabled_step :
    let s := after (.disabledStep 2) (holding (commanded { enabled stream8 with state := .disabling } .disable (.disable 4)))
    (s.line 2).state = .disabled ∧ results s = [(.ok, 4, 0)] := by decide +kernel
/-- 02 R37, R38. -/
theorem test_query :
    (after (.queryLine 2) (holding (commanded (enabled stream8) (.query 0x700) .untaken))).reports.map
      (fun r => (r.extent.address, r.extent.size, r.extent.bytes.take 4)) = [(0x700, 32, [1, 1, 0, 1])] := by decide +kernel
theorem test_report_written :
    results (after (.reportWriteEnd .ok) (carrying (holding (commanded (enabled stream8) (.query 0x700) .query))
      (.reportWrite 2) four)) = [(.ok, 32, 0)] := by decide +kernel

/-- SEND A and SEND B of chapter 5.9. -/
def sendA : SendBody := { address := 0x20003C, length := 40, breakBefore := 1, gap := 0, markFirst := false, ctsLimit := 5 }
def sendB : SendBody := { address := 0x300000, length := 10, breakBefore := 0, gap := 0, markFirst := false, ctsLimit := 5 }
/-- A SEND under way on a line with hardware flow. -/
def transmitting (t : Transmitter) : Line :=
  { enabled { stream8 with flow := .hardware } with tx := { t with
      list := [⟨2, .active, sendA⟩, ⟨3, .listed, sendB⟩], job := some { send := sendA, station := none }, breakDone := true } }

/-- Table 5.6 steps 9 and 12: SEND B completes after A; the ABORT_LINE waits for both. -/
theorem test_abort :
    let s := after (.abortLine 2) (holding (commanded (transmitting { Transmitter.rest with state := .send, sent := 15 })
      (.abort .tx) .untaken))
    (s.line 2).progress = .abort [2, 3] 2 ∧ (s.line 2).tx.endCause = some (.aborted, .send) := by decide +kernel
/-- 02 R40: count is the lost count. -/
theorem test_resume :
    results (after (.resumeRx 2) (holding (commanded
      { enabled stream8 with rx := { Receiver.rest with held := true, lost := 5 } } .resumeRx .untaken))) = [(.ok, 5, 0)] := by
  decide +kernel
/-- 04 R81: with the filler IDLE nothing is closed (detail 3). -/
theorem test_flush :
    results (after (.flushRx 2) (holding (commanded (enabled stream8) .flushRx .untaken))) = [(.ok, 0, 3)] := by decide +kernel

/-! ### Receiver (chapter 3) -/

/-- Line 2 with a receiver. -/
def receiving (r : LineRecord) (x : Receiver) : State := holding { enabled r with rx := x }
/-- Table 3.4: an EVEN line reads 01H with a parity bit 0 and a stop bit 0; all 0 with a stop bit 0 is a break. -/
theorem test_classes :
    let r := { stream8 with parity := .even }
    classify r [true, false, false, false, false, false, false, false, false] false =
      { value := 1, mark := false, framing := true, parity := true, brk := false, close := none } ∧
    classify r (List.replicate 9 false) false =
      { value := 0, mark := false, framing := false, parity := false, brk := true, close := none } := by decide
/-- 03 R45 to R47: the falling edge is sample 1, the start bit is checked at sample 8, bit k is read at sample 8 + 16 k. -/
theorem test_falling_edge : ((after (.fallingEdge 2) (holding (enabled stream8))).line 2).rx.state = .startCheck := by
  decide +kernel
theorem test_start_check :
    ((after (.startCheckSample 2 false) (receiving stream8 { Receiver.rest with state := .startCheck })).line 2).rx.state = .bits ∧
    ((after (.startCheckSample 2 true) (receiving stream8 { Receiver.rest with state := .startCheck })).line 2).rx.state = .hunt
    := by decide +kernel
theorem test_last_data_bit :
    let s := after (.dataBitSample 2 true)
      (receiving stream8 { Receiver.rest with state := .bits, read := List.replicate 7 false, sample := 8 + 16 * 7 })
    (s.line 2).rx.state = .stopCheck ∧ (s.line 2).rx.sample = 8 + 16 * 8 := by decide +kernel
theorem test_wait_mark_end :
    ((after (.waitMarkEnd 2) (receiving stream8 { Receiver.rest with state := .waitMark })).line 2).rx.state = .hunt := by
  decide +kernel
/-- 'a' (61H), low bit first. -/
theorem test_character_staged :
    ((after (.characterComplete 2 true) (receiving stream8 { Receiver.rest with
      state := .stopCheck, read := [true, false, false, false, false, true, true, false] })).line 2).rx.fifo = [char 0x61] := by
  decide +kernel
/-- 03 R54: a ninth character is lost, the line HELD. -/
theorem test_overrun :
    let s := after (.characterComplete 2 true) (receiving stream8 { Receiver.rest with
      state := .stopCheck, read := List.replicate 8 true, fifo := List.replicate 8 (char 1) })
    (s.line 2).rx.held = true ∧ (s.line 2).rx.lost = 1 ∧ (s.line 2).rx.fifo.length = 8 := by decide +kernel
/-- 03 R61, Table 3.8: an armed timer marks the newest staging entry. -/
theorem test_idle_gap :
    ((after (.idleGapTimerFire 2) (receiving stream8 { Receiver.rest with
      state := .hunt, fifo := [char 1, char 2], idleTimer := some 320, armed := true })).line 2).rx.fifo =
      [char 1, { char 2 with close := some .idleGap }] := by decide +kernel

/-! ### Buffers (chapter 4) -/

/-- A buffer at 400F00H being filled, another behind it. -/
def filling (capacity fill written : Nat) (assembly : List Byte) (rx : Receiver) : Line :=
  { enabled stream8 with
    rx
    filler := { Filler.rest with
      list := [⟨4, .active, ⟨0x400F00, capacity⟩⟩, ⟨5, .listed, ⟨0x401000, 64⟩⟩], state := .filling, fill, written, assembly } }
theorem test_filler_take :
    ((after (.fillerTakeEntry 2) (holding (filling 6 2 2 [] { Receiver.rest with fifo := [char 0x63] }))).line 2).filler.outstanding
      = some { address := 0x400F02, size := 1, bytes := [0x63] } := by decide +kernel
/-- The last byte of a buffer's capacity closes it FULL. -/
theorem test_filler_full :
    ((after (.fillerTakeEntry 2) (holding (filling 6 5 5 [] { Receiver.rest with fifo := [char 0x63] }))).line 2).filler.reason
      = .full := by decide +kernel
/-- 04 R76, R77: the close completes when the write ends; the next buffer is filled. -/
theorem test_buffer_write :
    let l := filling 6 6 2 [] Receiver.rest
    let s := after (.rxBufferWriteEnd 2 .ok) (carrying (holding { l with
      filler := { l.filler with state := .closing, reason := .full, outstanding := some four } }) (.rxBufferWrite 2) four)
    results s = [(.ok, 6, 1)] ∧ (s.line 2).filler.list.map Member.slot = [5] := by decide +kernel
/-- 04 R82: the FLUSH_RX completes with the flushed buffer's count and close reason, CLOSED_BEFORE_MARK. -/
theorem test_flush_completes :
    let l := commanded (filling 6 6 2 [] Receiver.rest) .flushRx .flush
    let s := after (.rxBufferWriteEnd 2 .ok) (carrying (holding { l with filler := { l.filler with
      state := .closing, reason := .full, outstanding := some four
      flush := some { slot := 4, ahead := some 1, atMark := false } } }) (.rxBufferWrite 2) four)
    results s = [(.ok, 6, 1), (.ok, 6, 18)] := by decide +kernel
/-- 04 R83: the head buffer completes ABORTED with its written count, the LISTED one with count 0; the ABORT_LINE counts 2. -/
theorem test_abort_buffers :
    results (after (.abortLine 2) (holding (commanded (filling 16 12 12 [] Receiver.rest) (.abort .rx) .untaken))) =
      [(.aborted, 12, 0), (.aborted, 0, 0), (.ok, 2, 0)] := by decide +kernel
/-- 04 R80: BUS_ERROR with 4 bytes in flight and 1 assembled: 5 lost. -/
theorem test_buffer_bus_error :
    let l := filling 16 7 2 [1] Receiver.rest
    let s := after (.rxBufferWriteEnd 2 .busError) (carrying (holding { l with
      filler := { l.filler with outstanding := some four } }) (.rxBufferWrite 2) four)
    (s.line 2).rx.lost = 5 ∧ results s = [(.busError, 2, 0)] := by decide +kernel

/-- Line 2 with a buffer whose completion is composed, the buffers given behind it. -/
def offering (behind : List (Member BufferBody)) (fifo : List Staged) (p : CommandProgress) : Line :=
  { enabled stream8 with
    progress := p
    rx := { Receiver.rest with fifo }
    filler := { Filler.rest with
      list := ⟨4, .finishing ⟨.ok, 6, 1⟩, ⟨0x400F00, 6⟩⟩ :: behind, state := .offering, fill := 6, written := 6, reason := .full } }
/-- A state in which the line's completion waits for a slot. -/
def bufferWaits (l : Line) : State := { holding l with backlog := { Backlog.rest with waiting := [.data 2] } }
/-- 04 R79: the list left empty with two entries staged raises NO_BUFFER (bit 2); R66: a LISTED buffer becomes the head. -/
theorem test_buffer_left :
    ((after .backlogGrant (bufferWaits (offering [] [char 1, char 2] .untaken))).line 2).event.pending = 0b00100#5 ∧
    ((after .backlogGrant (bufferWaits (offering [⟨5, .listed, ⟨0x401000, 64⟩⟩] [char 1] .untaken))).line 2).filler.list =
      [⟨5, .active, ⟨0x401000, 64⟩⟩] := by decide +kernel

/-! ### Transmitter (Table 5.6) -/

/-- Step 0. -/
theorem test_take_send :
    let l := transmitting Transmitter.rest
    let s := after (.txTakeRecord 2) (holding { l with tx := { l.tx with list := [⟨2, .listed, sendA⟩], job := none } })
    (s.line 2).tx.state = .brk ∧ (s.line 2).tx.outstanding = some { address := 0x20003C, size := 4, bytes := [] } := by
  decide +kernel
/-- Steps 1 and 3. -/
theorem test_read_end :
    ((after (.txDataReadEnd 2 (.ok [1, 2, 3, 4]) true) (carrying (holding (transmitting { Transmitter.rest with
      state := .brk, readOffset := 4, outstanding := some four })) (.txDataRead 2) four)).line 2).tx.outstanding =
      some { address := 0x200040, size := 12, bytes := [] } := by decide +kernel
/-- 05 R92, R93: in LOAD the 4 bytes join, the next read asks for the 12 bytes then free, and the first character starts. -/
theorem test_read_end_in_load :
    let s := after (.txDataReadEnd 2 (.ok [1, 2, 3, 4]) true) (carrying (holding (transmitting { Transmitter.rest with
      state := .load, readOffset := 4, outstanding := some four })) (.txDataRead 2) four)
    (s.line 2).tx.outstanding = some { address := 0x200040, size := 12, bytes := [] } ∧ (s.line 2).tx.staging = [2, 3, 4] := by
  decide +kernel
theorem test_break_end :
    let s := after (.breakEnd 2 true) (holding (transmitting { Transmitter.rest with
      state := .brk, readOffset := 16, staging := List.replicate 16 0x41 }))
    (s.line 2).tx.state = .send ∧ (s.line 2).tx.staging.length = 15 := by decide +kernel
/-- Steps 4 and 6. -/
theorem test_character_sent :
    let s := after (.txCharacterSent 2 true) (holding (transmitting { Transmitter.rest with
      state := .send, readOffset := 16, sent := 6, staging := List.replicate 9 0x41 }))
    (s.line 2).tx.sent = 7 ∧ (s.line 2).tx.outstanding = some { address := 0x20004C, size := 8, bytes := [] } := by
  decide +kernel
theorem test_cts_deasserted :
    let s := after (.txCharacterSent 2 false) (holding (transmitting { Transmitter.rest with
      state := .send, readOffset := 24, sent := 10, staging := List.replicate 13 0x41 }))
    (s.line 2).tx.state = .ctsWait ∧ (s.line 2).tx.sent = 11 ∧ (s.line 2).tx.ctsTimer = some 5 := by decide +kernel
/-- Step 7, and what the text below the table says of the fifth tick: CTS_TIMEOUT, count 11, bytes read 24. -/
theorem test_cts_asserted :
    ((after (.ctsAssert 2) (holding (transmitting { Transmitter.rest with
      state := .ctsWait, sent := 11, staging := List.replicate 13 0x41 }))).line 2).tx.state = .send := by decide +kernel
theorem test_cts_timeout :
    (results (after (.ctsWaitTimeout 2) (holding (transmitting { Transmitter.rest with
      state := .ctsWait, sent := 11, bytesRead := 24, staging := [1], ctsTimer := some 5 })))).map (fun r => (r.1, r.2.1)) =
      [(.ctsTimeout, 11)] := by decide +kernel
/-- 05 R94: the gap ends and the next character starts. -/
theorem test_gap_end :
    ((after (.gapEnd 2 true) (holding (transmitting { Transmitter.rest with
      state := .gap, sent := 1, staging := [1, 2] }))).line 2).tx.staging = [2] := by decide +kernel

/-! ### Polls (Table 6.8) -/

/-- POLL P of chapter 6.9. -/
def pollP : PollBody :=
  { station := 0x2C, payloadAddress := 0x500000, payloadLength := 2, replyAddress := 0x300010, replyCapacity := 4,
    replyEnd := .length, replyGap := 2, timeout := 10, retries := 1 }
/-- POLL P at the head of a POLL line. -/
def polling (p : PollEngine) : Line :=
  { enabled poll9 with poll := { p with list := [⟨6, .active, .poll pollP⟩], attemptNumber := 1 } }
/-- A marked character. -/
def marked (v : Byte) : Staged := { char v with mark := true }

/-- Steps 0 and 1. -/
theorem test_poll_taken :
    let s := after (.pollTakeRecord 2) (holding { enabled poll9 with
      poll := { PollEngine.rest with list := [⟨6, .listed, .poll pollP⟩] } })
    (s.line 2).poll.attempt = .guard ∧ (s.line 2).poll.attemptNumber = 1 := by decide +kernel
theorem test_guard_end :
    let s := after (.guardEnd 2) (holding (polling { PollEngine.rest with attempt := .guard }))
    (s.line 2).de = true ∧ (s.line 2).tx.txd = .frame (txFrame poll9 0x2C true) ∧
      (s.line 2).tx.outstanding = some { address := 0x500000, size := 2, bytes := [] } := by decide +kernel
/-- Step 3. -/
theorem test_request_sent :
    let l := polling { PollEngine.rest with attempt := .request }
    let s := after (.txCharacterSent 2 true) (holding { l with de := true, tx := { Transmitter.rest with
      state := .send, sent := 2, job := some { send := { sendB with length := 2 }, station := some 0x2C } } })
    (s.line 2).de = false ∧ (s.line 2).poll.window = true ∧ (s.line 2).poll.replyTimer = some 10 := by decide +kernel
theorem test_await_entry :
    ((after (.awaitEntry 2) (holding (polling { PollEngine.rest with attempt := .release }))).line 2).poll.attempt = .await := by
  decide +kernel
/-- An attempt in AWAIT with one entry staged. -/
def awaiting (e : Staged) : State :=
  let l := polling { PollEngine.rest with attempt := .await, window := true }
  holding { l with rx := { l.rx with fifo := [e] } }
/-- Steps 4 and 9. -/
theorem test_noise_is_stray :
    ((after (.pollTakeEntry 2) (awaiting (char 0))).line 2).rx.stray = 1 ∧
    ((after (.pollTakeEntry 2) (awaiting (char 0))).line 2).event.pending = 0b01000#5 := by decide +kernel
theorem test_reply_start :
    let s := after (.pollTakeEntry 2) (awaiting (marked 0x2C))
    (s.line 2).poll.attempt = .reply ∧ (s.line 2).poll.assembly = [] := by decide +kernel
/-- Step 5: NO_START; attempt 1 is over and attempt 2 begins. -/
theorem test_reply_timeout :
    ((after (.replyTimeout 2) (holding (polling { PollEngine.rest with
      attempt := .await, window := true, replyTimer := some 10 }))).line 2).poll.outcome = .noStart := by decide +kernel
theorem test_retry :
    let s := after (.attemptEnd 2) (holding (polling { PollEngine.rest with attempt := .settle, outcome := .noStart }))
    (s.line 2).poll.attempt = .guard ∧ (s.line 2).poll.attemptNumber = 2 := by decide +kernel
/-- Step 12: OK, count 4, last outcome OK (code 1), attempts 2, outcomes seen NO_START and OK. -/
theorem test_poll_completes :
    let l := polling { PollEngine.rest with attempt := .settle, outcome := .ok, written := 4, seen := 0b10#7 }
    (results (after (.attemptEnd 2) (holding { l with poll := { l.poll with attemptNumber := 2 } }))).map
      (fun r => (r.1, r.2.1)) = [(.ok, 4)] := by decide +kernel
theorem test_reply_write :
    ((after (.replyWriteEnd 2 .ok) (carrying (holding (polling { PollEngine.rest with
      attempt := .settle, outcome := .ok, written := 3, window := true, outstanding := some four })) (.replyWrite 2)
      { four with size := 1 })).line 2).poll.written = 4 := by decide +kernel
/-- 06 R118: a write ended in SETTLE, the bytes still assembled are requested, at the address of the first. -/
theorem test_reply_write_next :
    ((after (.replyWriteEnd 2 .ok) (carrying (holding (polling { PollEngine.rest with
      attempt := .settle, outcome := .ok, fill := 4, written := 1, window := true, assembly := [7, 8], outstanding := some four }))
      (.replyWrite 2) { four with size := 1 })).line 2).poll.outstanding =
      some { address := 0x300012, size := 2, bytes := [7, 8] } := by decide +kernel
/-- 06 R117: a gap with nothing staged under LENGTH is TRUNCATED. -/
theorem test_reply_gap :
    ((after (.replyGapFire 2) (holding (polling { PollEngine.rest with
      attempt := .reply, window := true, gapTimer := some 9 }))).line 2).poll.outcome = .truncated := by decide +kernel

/-! ### Events (Table 7.3) and the end of a drain -/

/-- A POLL line with an event unit and a stray count of 4. -/
def eventful (p : EventUnit) : Line := { enabled poll9 with event := p, rx := { Receiver.rest with stray := 4 } }
/-- Steps 1 and 4: the entry is admitted; its capture clears bits, flag and stray count. -/
theorem test_event_offer :
    let s := after (.eventOffer 2) (holding (eventful { pending := 0b01000#5, queued := false }))
    s.backlog.entries = [.event 0 2] ∧ (s.line 2).event.queued = true := by decide +kernel
theorem test_event_capture :
    let s := after .writerTakeEntry { holding (eventful { pending := 0b11000#5, queued := true }) with
      backlog := { Backlog.rest with entries := [.event 0 2] } }
    (s.line 2).event = { pending := 0, queued := false } ∧ (s.line 2).rx.stray = 0 ∧
      s.backlog.entries = [.completion 0 false { tag := 0xFFFF, kind := 0x20, status := .ok, line := 2, sq := 0, count := 0,
                                                  detail := 0x418 }] := by decide +kernel
/-- 11 R181. -/
theorem test_drain_complete : (after .drainComplete (inState .draining running)).ctl.state = .stopped := by decide +kernel

/-! ### Witnesses: the whole part -/

theorem witness_StepRunsFrontCommand : State.reset.pending = [] ∧ { running with pending := [.fetchIssue] }.pending ≠ [] := by
  decide

/-- A state in which CQ0 is flagged, NOTIFY asserted and a CLAIM comes. -/
def flagged : State :=
  { noted ⟨8, none, true⟩ ⟨0, none, false⟩ ⟨0, none, false⟩ 0 with
    notice := { (noted ⟨8, none, true⟩ ⟨0, none, false⟩ ⟨0, none, false⟩ 0).notice with pin := true }
    pending := [.claim .word] }
theorem witness_NotifyFollowsKept : flagged.NotifyFollows ∧ ∃ t, step flagged = .next t := by
  refine ⟨⟨fun _ => .inr ⟨0, by decide +kernel, by decide +kernel, fun k hk => ?_⟩, fun _ => rfl⟩, _, rfl⟩
  simp [flagged, noted, inService] at hk

theorem witness_BoundsKept : flagged.WithinBounds ∧ ∃ t, step flagged = .next t := by
  refine ⟨⟨by decide +kernel, by decide +kernel, by decide +kernel, fun n => ?_⟩, _, rfl⟩
  have : flagged.line n = Line.rest := by simp [flagged, noted, running, inState, State.reset, State.line]
  rw [this]; constructor <;> decide
/-- A line in AWAIT with its window open, and a reply timeout to come. -/
theorem witness_WindowsOpen :
    let s := { holding (polling { PollEngine.rest with attempt := .await, window := true, replyTimer := some 9 }) with
      pending := [.replyTimeout 2] }
    s.WindowsOpen ∧ (s.line 2).poll.attempt = .await ∧ ∃ t, step s = .next t := by
  refine ⟨?_, by decide +kernel, _, rfl⟩
  unfold State.WindowsOpen
  decide +kernel

theorem flagged_controller : flagged.ControllerInv := by
  constructor <;> simp [flagged, noted, running, inState, State.reset, Notification.rest, Fetcher.rest, Writer.rest, Port.rest]
theorem witness_FaultStateKept : flagged.ControllerInv ∧ ∃ t, step flagged = .next t := ⟨flagged_controller, _, rfl⟩

theorem witness_CompletionRingsKept : flagged.RingsInv ∧ ∃ t, step flagged = .next t := by
  refine ⟨⟨flagged_controller, by decide +kernel, ?_, ?_, ?_, by decide +kernel, by decide +kernel⟩, _, rfl⟩ <;>
    intro t ht <;> simp [flagged, noted, running, inState, State.reset, Fetcher.rest, Writer.rest, Port.rest] at ht

theorem witness_SubmissionRingsKept : flagged.SubmissionInv ∧ ∃ t, step flagged = .next t := by
  refine ⟨⟨by decide +kernel, by decide +kernel, ?_⟩, _, rfl⟩
  intro t q i ht; simp [flagged, noted, running, inState, State.reset, Fetcher.rest] at ht

theorem flagged_table : flagged.TableInv := by
  refine ⟨flagged_controller, by decide +kernel, ?_, ?_, by decide +kernel⟩
  · intro t i ht; simp [flagged, noted, running, inState, State.reset, Port.rest] at ht
  · intro t q i ht; simp [flagged, noted, running, inState, State.reset, Fetcher.rest] at ht
theorem witness_RequestTableKept : flagged.TableInv ∧ ∃ t, step flagged = .next t := ⟨flagged_table, _, rfl⟩

theorem witness_OffersKept : flagged.OffersInv ∧ ∃ t, step flagged = .next t := by
  refine ⟨⟨flagged_table, by decide +kernel, by decide +kernel, fun p _ => ?_, by decide +kernel⟩, _, rfl⟩
  have h : ∀ n, flagged.line n = Line.rest := fun n => by simp [flagged, noted, running, inState, State.reset, State.line]
  have hw : flagged.backlog.waiting = [] := rfl
  cases p <;> simp [State.onOffer, h, hw, Line.isPoll, Line.rest, headResult, LineRecord.unconfigured, Filler.rest,
    Transmitter.rest] <;> rfl

/-! ### Witnesses: the register window -/

theorem witness_StartAndStopWrites : ∀ c ∈ [ControllerState.stopped, .loading, .draining, .faulted],
    (inState c running).ctl.windowOpen = true ∧ (inState c running).ctl.state = c := by decide +kernel

theorem witness_StopAndDrain :
    (∀ l ∈ [enabled stream8, enabled poll9, Line.rest],
      (holding l).ctl.windowOpen = true ∧ (holding l).ctl.state = .running) ∧
    (holding (enabled stream8)).line 2 = enabled stream8 ∧ (enabled stream8).isPoll = false ∧
    (holding (enabled poll9)).line 2 = enabled poll9 ∧ (enabled poll9).isPoll = true ∧
    ((inState .draining running).ctl.state = .draining ∧ (∀ i, (inState .draining running).entry i = none) ∧
      (inState .draining running).backlog.entries = []) ∧
    (running.ctl.state ≠ .draining ∧ (crowded (inState .draining running)).backlog.entries ≠ []) := by decide +kernel

/-- A controller reset waits. -/
def resetting (s : State) : State := { s with ctl := { s.ctl with resetWaits := true } }
/-- RESETn is low. -/
def low (s : State) : State := { s with ctl := { s.ctl with resetHigh := false } }
theorem witness_Resets :
    running.ctl.windowOpen = true ∧ (resetting running).ctl.resetWaits = true ∧ (resetting running).ctl.resetHigh = true ∧
    (resetting running).port.inFlight = none ∧ (carrying (resetting running) (.txDataRead 0) four).port.inFlight ≠ none ∧
    (low running).ctl.resetHigh = false := by decide +kernel

theorem witness_ControlWriteDecoding :
    let code (value : Word) := (value.extractLsb' 0 8).toNat
    running.ctl.windowOpen = true ∧ code 0x1 = 1 ∧ code 0xFFFFFF02 = 2 ∧ code 0x3 = 3 ∧
    [code 0, code 4, code 0xFF, code 0x80000100] = [0, 4, 255, 0] := by decide +kernel

theorem witness_StatusAndInservice :
    running.ctl.windowOpen = true ∧ running.ctl.resetHigh = true ∧ (low running).ctl.resetHigh = false := by decide +kernel
theorem witness_IdentRead : running.ctl.resetHigh = true ∧ (low running).ctl.resetHigh = false := by decide +kernel

theorem witness_QbaseWrites_reads : ({ running.ctl with qbase := 0xABCDEF1280 } : Controller).resetHigh = true ∧
    (0xABCDEF1280#40).toNat % 128 = 0 := by decide +kernel
theorem witness_QbaseWrites : State.reset.ctl.windowOpen = true ∧ State.reset.ctl.state = .stopped ∧
    running.ctl.windowOpen = true ∧ running.ctl.state ≠ .stopped := by decide +kernel

/-- SQ0 has 4 slots, head 1 and tail 3; SQ2 is unused. POST of tail 2 takes one back, of tail 3 and of tail 0 does not. -/
theorem witness_PostWrite :
    let s := posted 1 3
    s.ctl.windowOpen = true ∧ s.ctl.state = .running ∧ (inState .draining s).ctl.state = .draining ∧
    (inState .stopped s).ctl.windowOpen = true ∧ (inState .stopped s).ctl.state = .stopped ∧
    sqSize s.block (ringNumber 0x20000#32) = 0 ∧ sqSize s.block (ringNumber 4#32) ≤ ((4#32).extractLsb' 0 10).toNat ∧
    (1 < sqSize s.block 0 ∧ (1 + 4 - 1) % 4 < (3 + 4 - 1) % 4) ∧ (2 < sqSize s.block 0 ∧ (2 + 4 - 1) % 4 < (3 + 4 - 1) % 4) ∧
    (3 < sqSize s.block 0 ∧ (3 + 4 - 1) % 4 ≤ (3 + 4 - 1) % 4) ∧ (0 < sqSize s.block 0 ∧ (3 + 4 - 1) % 4 ≤ (0 + 4 - 1) % 4) ∧
    s.fetcher.rings[(0 : SqNo)] = { head := 1, tail := 3 } := by decide +kernel

/-- CQ2 with tail 0 and occupancy 1 (head 3): RELEASE of head 1 is too much, of heads 3 and 0 is not; a full ring goes whole. -/
theorem witness_ReleaseWrite :
    let s := occupied 0 1
    s.ctl.windowOpen = true ∧ s.ctl.state = .running ∧ (inState .stopped s).ctl.windowOpen = true ∧
    (inState .stopped s).ctl.state = .stopped ∧ cqSize s.block (ringNumber 0x30000#32) = 0 ∧
    cqSize s.block (ringNumber 0x20004#32) ≤ ((0x20004#32).extractLsb' 0 10).toNat ∧
    cqSize s.block 2 = 4 ∧ s.writer.rings[(2 : CqNo)].occupancy < (1 + 4 - (0 + 4 - 1) % 4) % 4 ∧
    (0 + 4 - (0 + 4 - 1) % 4) % 4 ≤ s.writer.rings[(2 : CqNo)].occupancy ∧ (3 + 4 - (0 + 4 - 1) % 4) % 4 = 0 ∧
    (occupied 3 4).writer.rings[(2 : CqNo)].occupancy = cqSize s.block 2 := by decide +kernel

theorem test_equal_levels :
    (after (.claim .word) (noted ⟨1, none, false⟩ ⟨1, none, true⟩ ⟨1, none, true⟩ 1)).notice.cqs[1].flag = false := by
  decide +kernel
/-- CQ1 and CQ2 are flagged at level 3, above level 1 in service; with level 3 in service none is; a fault is before both. -/
theorem witness_ClaimRead :
    let s := noted ⟨1, none, false⟩ ⟨1, none, true⟩ ⟨64, none, true⟩ 1
    let claimed (s : State) (q : CqNo) := notifyEnabled s.block q = true ∧ s.notice.cqs[q].flag = true ∧
      ∀ k, inService s.notice.inService k = true → k < cqLevel s.block q
    s.ctl.windowOpen = true ∧ s.notice.faultRequest = false ∧
    (claimed s 1 ∧ ∀ p, claimed s p → cqLevel s.block p < cqLevel s.block 1 ∨ cqLevel s.block p = cqLevel s.block 1 ∧ 1 ≤ p.val) ∧
    (∀ q, ¬ claimed (noted ⟨1, none, true⟩ ⟨1, none, true⟩ ⟨1, none, true⟩ 0b00100#5) q) ∧
    { s.notice with faultRequest := true }.faultRequest = true ∧ inService s.notice.inService 5 = false := by
  have h1 : ∀ k, inService (1#5) k = true → k = 1 := fun k hk => by
    simp [inService] at hk; omega
  have h4 : inService (0b00100#5) 3 = true := by decide
  refine ⟨by decide +kernel, by decide +kernel, ⟨⟨by decide +kernel, by decide +kernel, fun k hk => ?_⟩, fun p hp => ?_⟩,
    fun q hq => ?_, rfl, by decide⟩
  · rw [h1 k hk]; decide +kernel
  · revert hp; revert p; intro p
    match p with
    | 0 => intro hp; exact absurd hp.2.1 (by decide)
    | 1 => intro _; exact .inr ⟨rfl, by decide⟩
    | 2 => intro _; exact .inr ⟨by decide +kernel, by decide⟩
    | 3 => intro hp; exact absurd hp.2.1 (by decide)
  · have := hq.2.2 3 h4
    match q with
    | 0 | 1 | 2 | 3 => exact absurd this (by decide +kernel)

theorem inService_le (set : BitVec 5) (j : Nat) (h : inService set j = true) : j ≤ 5 := by
  simp [inService] at h
  by_contra hc
  have := BitVec.getLsbD_of_ge set (j - 1) (by omega)
  simp [this] at h
theorem witness_EndservWrite :
    running.ctl.windowOpen = true ∧ running.notice.inService = 0 ∧
    (∀ j, inService (0b00001#5) j = true → j ≤ 1) ∧ inService (0b00001#5) 1 = true ∧
    (∀ j, inService (0b11111#5) j = true → j ≤ 5) ∧ inService (0b11111#5) 5 = true := by
  refine ⟨by decide +kernel, rfl, fun j h => ?_, by decide, fun j => inService_le _ j, by decide⟩
  have := inService_le _ j h
  interval_cases j <;> simp_all [inService]

theorem witness_InServiceChanges :
    (∃ t, exec (.claim .word) flagged = .next t ∧ t.notice.inService ≠ flagged.notice.inService) ∧
    let s := noted ⟨0, none, false⟩ ⟨0, none, false⟩ ⟨0, none, false⟩ 0b10101#5
    (∃ t, exec (.endserv 0) s = .next t ∧ t.notice.inService ≠ s.notice.inService) ∧
    (∃ t, exec .controllerResetTake (resetting s) = .next t ∧ t.notice.inService ≠ s.notice.inService) ∧
    (∃ t, exec .deviceResetAssert s = .next t ∧ t.notice.inService ≠ s.notice.inService) ∧
    ∃ t, exec .deviceResetRelease (low s) = .next t ∧ t.notice.inService ≠ s.notice.inService := by
  refine ⟨⟨_, rfl, ?_⟩, ⟨_, rfl, ?_⟩, ⟨_, rfl, ?_⟩, ⟨_, rfl, ?_⟩, ⟨_, rfl, ?_⟩⟩ <;> decide +kernel

theorem witness_IgnoredAccesses : (resetting running).ctl.windowOpen = false ∧ (low running).ctl.windowOpen = false ∧
    ∀ k ∈ ([0, 7, 9, 10, 15] : List (Fin 16)), k = 0 ∨ k = 7 ∨ k = 9 ∨ 10 ≤ k := by decide +kernel

/-! ### Witnesses: descriptors, dispatch, port, backlog -/

/-- A descriptor read in flight in LOADING. -/
def reading (k : Fin 4) (ending : Bool) : State :=
  carrying { inState .loading running with ctl := { (inState .loading running).ctl with loadEnding := ending } }
    (.descriptorRead k) four
theorem witness_DescriptorReadEnds :
    (∀ k : Fin 4, ∀ ending : Bool, (reading k ending).inTransfer { kind := .descriptorRead k, extent := four } ∧
      (reading k ending).ctl.loadEnding = ending) ∧
    (lastRead 128).inTransfer { kind := .descriptorRead 3, extent := four } ∧ (lastRead 128).ctl.loadEnding = false ∧
    (∃ b, examine ((lastRead 128).fetcher.kept ++ (record ((startUp 128).drop 96)).toList) = .valid b) ∧
    examine ((lastRead 2).fetcher.kept ++ (record ((startUp 2).drop 96)).toList) = .invalid (.cq 0) := by
  unfold State.inTransfer
  refine ⟨by decide +kernel, by decide +kernel, by decide +kernel, ⟨_, rfl⟩, by decide +kernel⟩

theorem witness_BlockExamination : ∃ b, examine (startUp 128) = .valid b := ⟨_, rfl⟩

theorem witness_FetchIssues :
    let s := posted 1 3
    s.ctl.state = .running ∧ s.fetcher.outstanding = none ∧ s.block = some block ∧ s.entry 0 = none ∧
    s.maySupply 0 ∧ (∀ p, s.maySupply p → p = 0) ∧ s.fetcher.credit = 0 ∧ (s.fetcher.turn = 3) ∧
    { s.fetcher with turn := 0, credit := 1 }.credit = 1 ∧
    (∀ q, ¬ (posted 3 3).maySupply q) ∧ (inState .draining s).ctl.state ≠ .running ∧
    (∀ i, ({ s with table := Vector.replicate 64 (some entry) } : State).entry i ≠ none) := by
  simp only [State.maySupply]
  decide +kernel

/-- The dispatcher has a completion waiting behind a full backlog. -/
def dispatcherKept (s : State) : State :=
  { crowded s with dispatched := [(9, ⟨.badKind, 0, 0⟩)]
                   backlog := { (crowded s).backlog with waiting := [.dispatcher] } }
theorem witness_RecordCompletedAtOnce :
    let s := fetching (posted 0 2)
    let d := fetching { inState .draining (posted 0 2) with lines := running.lines.set 2 (enabled stream8) }
    (∀ x ∈ [s, crowded s, dispatcherKept s, d], x.inTransfer { kind := .recordFetch 0 0, extent := four } ∧
      x.entry 0 = some { sq := 0, cq := 0, header := none } ∧ x.dispatcherWaits) ∧
    verdict s.block s.lines (record [0x55]).toList = .refused .badKind none ∧
    d.ctl.state = .draining ∧
    verdict d.block d.lines (record [0x11, 0, 2, 0, 0, 0, 0, 0, 0, 1, 0, 0, 0, 0, 0, 0, 4]).toList =
      .accepted (some 2) (.buffer ⟨0x100, 4⟩) := by
  unfold State.inTransfer State.dispatcherWaits
  decide +kernel

/-- A fetch in flight with line 2 as given. -/
def fetchingTo (l : Line) : State := fetching { posted 0 2 with lines := running.lines.set 2 l }
theorem witness_RecordRouted :
    let v (l : Line) (xs : List Byte) := verdict (fetchingTo l).block (fetchingTo l).lines (record xs).toList
    (∀ l ∈ [Line.rest, enabled stream8, enabled poll9], (fetchingTo l).inTransfer { kind := .recordFetch 0 0, extent := four } ∧
      (fetchingTo l).entry 0 = some { sq := 0, cq := 0, header := none } ∧ (fetchingTo l).dispatcherWaits ∧
      (fetchingTo l).ctl.state ≠ .draining) ∧
    v Line.rest [2, 0, 2] = .accepted (some 2) (.command .enable) ∧ v Line.rest [7] = .accepted none .fence ∧
    v (enabled stream8) [0x10, 0, 2, 0, 0, 0, 0, 0, 0, 1, 0, 0, 0, 0, 0, 0, 4] =
      .accepted (some 2) (.send ⟨0x100, 4, 0, 0, false, 0⟩) ∧
    v (enabled poll9) [0x10, 0, 2, 0, 0, 0, 0, 0, 0, 1, 0, 0, 0, 0, 0, 0, 4] =
      .accepted (some 2) (.send ⟨0x100, 4, 0, 0, false, 0⟩) ∧
    v (enabled poll9) [0x13, 0, 2, 0, 0, 0, 0, 0, 0x2C, 0x11, 2, 10] =
      .accepted (some 2) (.poll ⟨0x2C, 0, 0, 0, 0, .length, 2, 10, 1⟩) ∧
    v (enabled stream8) [0x11, 0, 2, 0, 0, 0, 0, 0, 0, 1, 0, 0, 0, 0, 0, 0, 4] = .accepted (some 2) (.buffer ⟨0x100, 4⟩) ∧
    (enabled stream8).filler.list = [] ∧ (filling 4 0 0 [] Receiver.rest).filler.list ≠ [] ∧
    v (filling 4 0 0 [] Receiver.rest) [0x11, 0, 2, 0, 0, 0, 0, 0, 0, 1, 0, 0, 0, 0, 0, 0, 4] =
      .accepted (some 2) (.buffer ⟨0x100, 4⟩) := by
  unfold State.inTransfer State.dispatcherWaits
  decide +kernel

/-- Every step of the validation has a record that fails it (Table 1.5). -/
theorem witness_ValidationOrder :
    let v (l : Line) (xs : List Byte) := verdict (some block) (running.lines.set 2 l) (record xs).toList
    let data : List Byte := [0x11, 0, 2, 0, 0, 0, 0, 0, 0, 1, 0, 0, 0, 0, 0, 0, 4]
    v Line.rest [0, 0, 0x20] = .refused .badKind none ∧ v Line.rest [1, 0, 16] = .refused .badLine none ∧
    v Line.rest [2, 2, 2] = .refused .badField (some 2) ∧ v Line.rest [7, 0, 1] = .refused .badField none ∧
    v Line.rest data = .refused .lineDisabled (some 2) ∧ v (enabled poll9) data = .refused .wrongMode (some 2) := by
  decide +kernel

theorem witness_AcceptedDataRecordsFit :
    let v (l : Line) (xs : List Byte) := verdict (some block) (running.lines.set 2 l) (record xs).toList
    v (enabled stream8) [0x10, 0, 2, 0, 0, 0, 0, 0, 0, 0xF0, 0xFF, 0xFF, 0xFF, 0, 0, 0, 0, 0x10, 15, 255] =
      .accepted (some 2) (.send ⟨0xFFFFFFF000, 4096, 15, 255, false, 0⟩) ∧
    v (enabled stream8) [0x11, 0, 2, 0, 0, 0, 0, 0, 0, 1, 0, 0, 0, 0, 0, 0, 1] = .accepted (some 2) (.buffer ⟨0x100, 1⟩) ∧
    v (enabled poll9) [0x13, 0, 2, 0, 0, 0, 0, 0, 0x2C, 0x27, 1, 255, 0, 1, 0, 1] =
      .accepted (some 2) (.poll ⟨0x2C, 0, 256, 0, 256, .gap, 1, 255, 7⟩) := by decide +kernel

/-- SQ1 is held by a FENCE in entry 8. -/
def fenced (waitSet : List Slot) : State :=
  { running with fences := running.fences.set 1 (some { slot := 8, waitSet, count := 2 })
                 table := running.table.set 8 (some entry) }
/-- The fence logic has a completion waiting. -/
def fenceKept (s : State) : State :=
  { crowded s with fencesDone := [(9, ⟨.ok, 0, 0⟩)], backlog := { (crowded s).backlog with waiting := [.fence] } }
theorem witness_FenceFinishes :
    (fenced [3]).fences[(1 : SqNo)] = some { slot := 8, waitSet := [3], count := 2 } ∧
    (∀ x ∈ [fenced [], crowded (fenced []), fenceKept (fenced [])],
      x.fences[(1 : SqNo)] = some { slot := 8, waitSet := [], count := 2 } ∧ x.entry 8 = some entry ∧
      (x.fencesDone ≠ [] ↔ .fence ∈ x.backlog.waiting)) ∧
    (fenced []).hasRoom ∧ ¬ (crowded (fenced [])).hasRoom ∧ (crowded (fenced [])).fencesDone = [] ∧
    ¬ (fenceKept (fenced [])).hasRoom ∧ (fenceKept (fenced [])).fencesDone ≠ [] := by
  unfold State.hasRoom
  decide +kernel

theorem witness_TransferFaults :
    (fetching running).inTransfer { kind := .recordFetch 0 0, extent := four } ∧
    (writing running 1 (done false 1)).inTransfer { kind := .completionWrite 1, extent := four } := by
  unfold State.inTransfer
  decide +kernel

theorem witness_PortGrantsAndReset :
    (∀ k ∈ [TransferKind.descriptorRead 0, .recordFetch 0 0, .txDataRead 2, .payloadRead 2, .rxBufferWrite 2, .replyWrite 2,
        .reportWrite 2, .completionWrite 1],
      (carrying (resetting running) k four).port.inFlight = some { kind := k, extent := four } ∧
      (carrying (resetting running) k four).ctl.resetWaits = true) ∧
    (portWaiting.ctl.windowOpen = true ∧ portWaiting.port.inFlight = none ∧ portWaiting.writer.outstanding = none) ∧
    (portWaiting.requestOf .fetcher).isSome = true ∧ portWaiting.port.last = .report ∧
    ({ running.writer with outstanding := some ⟨.completionWrite 1, four⟩ } : Writer).outstanding ≠ none ∧
    running.requestOf .fetcher = none ∧ running.requestOf .report = none ∧ (∀ n, running.requestOf (.line n) = none) := by
  decide +kernel

theorem witness_EventOffered :
    let s := holding (eventful { pending := 0b01000#5, queued := false })
    ((s.line 2).event.pending ≠ 0 ∧ (s.line 2).event.queued = false ∧ .event 2 ∉ s.backlog.waiting ∧
      s.ctl.state = .running ∧ cqSize s.block (s.line 2).record.eventCq ≠ 0) ∧ s.hasRoom ∧ ¬ (crowded s).hasRoom := by
  unfold State.hasRoom
  decide +kernel

/-- The event unit of line 2 alone waits. -/
def eventWaits : State :=
  { holding (eventful { pending := 0b01000#5, queued := false }) with backlog := { Backlog.rest with waiting := [.event 2] } }
theorem witness_BacklogGrants :
    waitingThree.backlog.entries.length < 32 ∧ .transmitter 5 ∈ waitingThree.backlog.waiting ∧
    (∀ o ∈ waitingThree.backlog.waiting, (Producer.position (.transmitter 5) + 65 - waitingThree.backlog.lastGranted.position) % 66
      ≤ (o.position + 65 - waitingThree.backlog.lastGranted.position) % 66) ∧
    waitingThree.onOffer (.transmitter 5) = some (2, ⟨.ok, 6, 6⟩) ∧ waitingThree.entry 2 = some entry ∧
    eventWaits.backlog.entries.length < 32 ∧ eventWaits.backlog.waiting = [.event 2] := by decide +kernel

/-- Every kind of unit with a record whose completion is composed, and none but it. -/
theorem witness_BacklogGrants_units :
    let r : Result := ⟨.ok, 6, 1⟩
    let kept : State := { running with table := running.table.set 4 (some entry), dispatched := [(4, r)], fencesDone := [(4, r)] }
    (kept.entry 4 = some entry ∧ kept.onOffer .dispatcher = some (4, r) ∧ kept.onOffer .fence = some (4, r)) ∧
    (let s := holding { enabled stream8 with
        control := [⟨4, .finishing r, .resumeRx⟩, ⟨5, .listed, .flushRx⟩], tx := { Transmitter.rest with list := [⟨6, .finishing r, sendA⟩] } }
    s.entry 4 = some entry ∧ s.onOffer (.control 2) = some (4, r) ∧ s.entry 6 = some entry ∧
      s.onOffer (.transmitter 2) = some (6, r)) ∧
    (let s := holding (polling { PollEngine.rest with attempt := .settle, list := [] })
    let t := s.setLine 2 { s.line 2 with poll := { (s.line 2).poll with list := [⟨6, .finishing r, .poll pollP⟩] } }
    t.entry 6 = some entry ∧ t.onOffer (.data 2) = some (6, r) ∧ (t.line 2).record.mode = .poll) ∧
    ∀ behind ∈ [[], [⟨5, .listed, ⟨0x401000, 64⟩⟩], [⟨5, .finishing ⟨.stopped, 0, 0⟩, ⟨0x401000, 64⟩⟩]],
      ∀ fifo ∈ [[], [char 1]], ∀ p ∈ [CommandProgress.untaken, .abort [4] 1],
      let s := holding (offering behind fifo p)
      s.entry 4 = some entry ∧ s.onOffer (.data 2) = some (4, r) ∧ (s.line 2).record.mode = .stream ∧
      (s.line 2).filler.list.tail = behind := by decide +kernel

/-- After this grant no unit has anything new to offer. -/
theorem witness_BacklogGrants_alone :
    let s := bufferWaits (offering [⟨5, .listed, ⟨0x401000, 64⟩⟩] [] .untaken)
    let t := State.enterBacklog { s with backlog := { s.backlog with waiting := s.backlog.waiting.erase (.data 2), lastGranted := .data 2 } }
      (.data 2)
    s.backlog.entries.length < 32 ∧ s.backlog.waiting = [.data 2] ∧ ∀ o, (t.onOffer o).isSome = true → o ∈ t.backlog.waiting := by
  refine ⟨by decide +kernel, rfl, ?_⟩
  rintro (_ | _ | n | n | n | n)
  · decide +kernel
  · decide +kernel
  all_goals revert n; decide +kernel

/-- CQ2 (occupancy 3 of 4) and CQ1 have entries; CQ0 was served last. -/
def writable : State :=
  { occupied 0 3 with
    backlog := { Backlog.rest with entries := [done true 2, .event 1 2, done false 2] }
    writer := { (occupied 0 3).writer with lastServed := 0 } }
theorem witness_WriterTakesEntry :
    let s := writable
    let serviceable (s : State) (q : CqNo) :=
      (∃ e ∈ s.backlog.entries, e.cq = q) ∧ s.writer.rings[q].occupancy < cqSize s.block q
    s.ctl.state = .running ∧ s.writer.outstanding = none ∧ s.block = some block ∧
    s.backlog.entries = [done true 2] ++ .event 1 2 :: [done false 2] ∧ (∀ x ∈ [done true 2], x.cq ≠ 1) ∧
    s.writer.rings[(1 : CqNo)].occupancy < block.cqs[(1 : CqNo)].size ∧
    (∀ p : CqNo, serviceable s p → ((1 : CqNo).val + 3 - s.writer.lastServed.val) % 4 ≤ (p.val + 3 - s.writer.lastServed.val) % 4) ∧
    (serviceable s 2 ∧ ∀ p : CqNo, serviceable s p → ((2 : CqNo).val + 3 - 1) % 4 ≤ (p.val + 3 - 1) % 4) ∧
    (∀ q, ¬ serviceable running q) := by decide +kernel

theorem witness_CompletionWritten :
    let s := writing (occupied 3 3) 2 (done true 2)
    s.inTransfer { kind := .completionWrite 2, extent := four } ∧ s.block = some block ∧ s.NotifyFollows ∧
    s.backlog.entries = [] ++ done true 2 :: [] ∧ notifyEnabled s.block 2 = true ∧
    s.notice.cqs[(2 : CqNo)].timer = none ∧ block.cqs[(2 : CqNo)].delay = 0 ∧ block.cqs[(0 : CqNo)].delay ≠ 0 := by
  refine ⟨⟨rfl, rfl⟩, rfl, ⟨fun h => ?_, fun h => ?_⟩, rfl, by decide +kernel, by decide +kernel, by decide +kernel,
    by decide +kernel⟩
  · exact absurd h (by decide +kernel)
  · rcases h with ⟨h, -⟩ | ⟨q, -, h, -⟩
    · exact absurd h (by decide +kernel)
    · exact absurd h (by revert q; decide +kernel)

theorem witness_DelayTimerExpires : ∀ c ∈ [(⟨0, some 4, false⟩ : CqNotice), ⟨1, some 255, false⟩, ⟨1, none, false⟩],
    (noted c c c 0).notice.cqs[(0 : CqNo)] = c := by decide +kernel

/-! ### Witnesses: line commands -/

/-- Command `c` at the head of line 2's control list. -/
def atHead (l : Line) (c : LineCommand) (p : CommandProgress) : Prop :=
  (holding (commanded l c p)).CommandAtHead 2 { slot := 1, phase := .active, body := c } [] p

theorem atHead_of (l : Line) (c : LineCommand) (p : CommandProgress) (hf : headResult l.filler.list = none)
    (ht : headResult l.tx.list = none) (hp : headResult l.poll.list = none) : atHead l c p := by
  have hl := holding_line (commanded l c p)
  have h1 : (holding (commanded l c p)).onOffer (.data 2) = none := by
    simp only [State.onOffer, hl]; split
    · exact hp
    · exact hf
  have h2 : (holding (commanded l c p)).onOffer (.transmitter 2) = none := by simp only [State.onOffer, hl]; exact ht
  have h3 : (holding (commanded l c p)).onOffer (.control 2) = none := by simp only [State.onOffer, hl]; rfl
  refine ⟨by rw [hl]; rfl, rfl, by rw [hl]; rfl, by simp, ?_, ?_, ?_⟩
  · simp [State.entry, holding, commanded, Line.heldSlots, memberSlots]
  · simp [holding, running, inState, State.reset, Backlog.rest]
  · simp [State.noNewOffers, State.newOffers, lineProducers, h1, h2, h3]

theorem witness_CommandsEndAtHead :
    (∀ c, atHead (enabled stream8) c .untaken) ∧ (∀ c, atHead (enabled poll9) c .untaken) ∧ (∀ c, atHead Line.rest c .untaken) ∧
    (enabled stream8).state = .enabled ∧ (enabled poll9).state = .enabled ∧ (enabled poll9).record.mode = .poll ∧
    Line.rest.state = .disabled ∧ Line.rest.record.configured = false :=
  ⟨fun c => atHead_of _ c _ rfl rfl rfl, fun c => atHead_of _ c _ rfl rfl rfl, fun c => atHead_of _ c _ rfl rfl rfl,
    rfl, rfl, rfl, rfl, rfl⟩

/-- A DISABLED line that is configured. -/
def ready (r : LineRecord) : Line := { Line.rest with record := r }
theorem witness_ConfigureAndEnable :
    (∀ r ∈ [stream8, poll9], atHead (ready r) .enable .untaken ∧ (ready r).state = .disabled ∧ (ready r).tx.list = [] ∧
      (ready r).filler.list = [] ∧ (ready r).poll.list = [] ∧ (ready r).record.configured = true) ∧
    atHead Line.rest (.configure stream8) .untaken :=
  ⟨by intro r hr; simp at hr; rcases hr with rfl | rfl <;> exact ⟨atHead_of _ _ _ rfl rfl rfl, rfl, rfl, rfl, rfl, rfl⟩,
    atHead_of _ _ _ rfl rfl rfl⟩

/-- A line with a record on every list of a STREAM line, and one with a poll. -/
def busyStream : Line :=
  { transmitting { Transmitter.rest with state := .send, sent := 3 } with
    filler := (filling 16 12 8 [] Receiver.rest).filler }
def busyPoll : Line := polling { PollEngine.rest with attempt := .await, window := true }
theorem witness_DisableLineSteps :
    atHead busyStream .disable .untaken ∧ busyStream.state = .enabled ∧ busyStream.record.mode = .stream ∧
    atHead busyPoll .disable .untaken ∧ busyPoll.state = .enabled ∧ busyPoll.record.mode = .poll ∧
    atHead { enabled stream8 with state := .disabling } .disable (.disable 4) ∧
    (enabled stream8).tx.list = [] ∧ (enabled stream8).filler.list = [] ∧ (enabled stream8).poll.list = [] ∧
    atHead { busyStream with state := .disabling } .disable (.disable 0) ∧ busyStream.tx.list ≠ [] :=
  ⟨atHead_of _ _ _ rfl rfl rfl, rfl, rfl, atHead_of _ _ _ rfl rfl rfl, rfl, rfl, atHead_of _ _ _ rfl rfl rfl, rfl, rfl, rfl,
    atHead_of _ _ _ rfl rfl rfl, by simp [busyStream, transmitting]⟩

theorem witness_QueryAndReport :
    atHead (enabled stream8) (.query 0xFFFFFFFFE0) .untaken ∧
    let s := carrying (holding (commanded (enabled stream8) (.query 0) .query)) (.reportWrite 2) four
    s.inTransfer { kind := .reportWrite 2, extent := four } ∧
      s.CommandAtHead 2 { slot := 1, phase := .active, body := .query 0 } [] .query := by
  refine ⟨atHead_of _ _ _ rfl rfl rfl, ⟨rfl, rfl⟩, ?_⟩
  have h := atHead_of (enabled stream8) (.query 0) .query rfl rfl rfl
  exact ⟨h.head, h.active, h.progress, h.behind, h.inUse, h.notWaiting, h.quiet⟩

theorem witness_CompletionAndReportFields :
    (busyStream.WithinBounds ∧ busyStream.tx.list.length ≤ 64 ∧ busyStream.filler.list.length ≤ 64) ∧
    { Receiver.rest with lost := 65535, stray := 255 }.lost = 65535 := by
  refine ⟨⟨⟨?_, ?_, ?_, ?_, ?_, ?_, ?_⟩, ?_, ?_⟩, rfl⟩ <;> decide +kernel

theorem witness_AbortLineTaken :
    (∀ c, atHead (enabled stream8) (.abort c) .untaken ∧ (enabled stream8).reachedByAbort c = []) ∧
    (∀ c, atHead busyStream (.abort c) .untaken ∧ busyStream.reachedByAbort c ≠ []) ∧
    atHead busyPoll (.abort .all) .untaken ∧ busyPoll.reachedByAbort .all ≠ [] ∧ busyPoll.state = .enabled ∧
    ([2, 3] : List Slot).erase 2 ≠ [] ∧ ([2] : List Slot).erase 2 = [] ∧
    { busyStream with progress := .abort [2] 2 }.progress = .abort [2] 2 :=
  ⟨fun c => ⟨atHead_of _ _ _ rfl rfl rfl, by cases c <;> decide +kernel⟩,
    fun c => ⟨atHead_of _ _ _ rfl rfl rfl, by cases c <;> decide +kernel⟩, atHead_of _ _ _ rfl rfl rfl, by decide +kernel, rfl,
    by decide, by decide, rfl⟩

theorem witness_ResumeAndFlush :
    (∀ l ∈ [{ enabled { stream8 with flow := .hardware } with rx := { Receiver.rest with held := true, fifo := [char 1, char 2] } },
        Line.rest], atHead l .resumeRx .untaken) ∧
    (∀ f ∈ [FillerState.idle, .closing, .offering], atHead { enabled stream8 with filler := { Filler.rest with state := f } }
      .flushRx .untaken) ∧
    (∀ x ∈ [{ Receiver.rest with fifo := [char 1, char 2] }, Receiver.rest], ∀ a ∈ [[], [1#8]],
      atHead (filling 6 2 1 a x) .flushRx .untaken ∧ (filling 6 2 1 a x).filler.state = .filling ∧
      (filling 6 2 1 a x).filler.endStatus = none) := by
  refine ⟨fun l hl => ?_, fun f _ => atHead_of _ _ _ rfl rfl rfl, fun x _ a _ => ⟨atHead_of _ _ _ rfl rfl rfl, rfl, rfl⟩⟩
  simp at hl
  rcases hl with rfl | rfl <;> exact atHead_of _ _ _ rfl rfl rfl

/-- A buffer of line 2 whose completion is composed, flushed by the FLUSH_RX at the head; and another than it. -/
theorem witness_ResumeAndFlush_completion :
    let r : Result := { status := .ok, count := 6, detail := 1 }
    let flush : FlushRecord := { slot := 4, ahead := none, atMark := true }
    let l := commanded { filling 6 6 6 [] Receiver.rest with filler :=
      { (filling 6 6 6 [] Receiver.rest).filler with list := [⟨4, .finishing r, ⟨0x400F00, 6⟩⟩], flush := some flush } } .flushRx .flush
    (holding l).onOffer (.data 2) = some (4, r) ∧ (holding l).entry 4 = some entry ∧ l.record.mode = .stream ∧
    l.progress = .flush ∧ l.filler.flush = some flush ∧ flush.slot = 4 ∧ flush.slot ≠ 5 := by decide +kernel

/-- A FLUSH_RX that waits, or whose buffer is another, when the completion of the buffer in entry 4 enters. -/
theorem witness_ResumeAndFlush_waiting :
    (∀ behind ∈ [[], [⟨5, .listed, ⟨0x401000, 64⟩⟩], [⟨5, .finishing ⟨.stopped, 0, 0⟩, ⟨0x401000, 64⟩⟩]],
      ∀ fifo ∈ [[], [] ++ [char 1], [char 1] ++ [char 2]],
      let l := offering behind fifo .flushHanded
      l.BufferLeft l.nextBuffer ∧ l.progress = .flushHanded ∧ (∀ f, l.filler.flush = some f → f.slot ≠ 4) ∧
      l.filler.list.tail = behind ∧ l.rx.fifo = fifo ∧ l.filler.outstanding = none) ∧
    let l : Line := { offering [⟨5, .listed, ⟨0x401000, 64⟩⟩] [] .flush with filler := { (offering [] [] .flush).filler with
      flush := some ⟨4, none, true⟩ } }
    l.BufferLeft l.nextBuffer ∧ l.progress = .flush ∧ l.filler.flush = some ⟨4, none, true⟩ ∧ (4 : Slot) ≠ 5 :=
  ⟨fun b _ f _ => ⟨Line.nextBuffer_left _, rfl, (fun _ h => by cases h), rfl, rfl, rfl⟩, Line.nextBuffer_left _, rfl, rfl, by decide⟩

/-! ### Witnesses: receiver, buffers, transmitter, polls -/

theorem witness_ReceiverSamples : ∀ x ∈ [RxState.off, .hunt, .startCheck, .bits, .stopCheck, .waitMark],
    let s := receiving stream8 { Receiver.rest with state := x, read := List.replicate 7 false }
    s.noNewOffers 2 ∧ (s.line 2).rx.state = x := by
  unfold State.noNewOffers
  decide +kernel

/-- Characters staged with 0, 5, 7 and 8 entries before them; lost on a HELD line at counts 65534 and 65535; stray at 254
and 255; in an open window, in REPLY. -/
theorem witness_CharacterCompletes :
    let x : Receiver := { Receiver.rest with state := .stopCheck, read := List.replicate 9 true }
    (∀ l ∈ [{ enabled stream8 with rx := x }, { enabled stream8 with rx := { x with fifo := List.replicate 5 (char 1) } },
        { enabled { stream8 with idleGap := 2 } with rx := { x with fifo := List.replicate 7 (char 1) } },
        { enabled { stream8 with flow := .hardware } with rx := { x with fifo := List.replicate 8 (char 1) }, rts := true },
        { enabled stream8 with rx := { x with held := true, lost := 65534 } },
        { enabled stream8 with rx := { x with held := true, lost := 65535 } },
        { enabled poll9 with rx := { x with stray := 254 } }, { enabled poll9 with rx := { x with stray := 255 } },
        { polling { PollEngine.rest with attempt := .reply, window := true } with rx := x }],
      (holding l).noNewOffers 2 ∧ ((holding l).line 2).rx.state = .stopCheck) := by
  unfold State.noNewOffers
  decide +kernel

theorem witness_IdleGapFires :
    let x : Receiver := { Receiver.rest with state := .hunt, idleTimer := some 320 }
    ∀ l ∈ [enabled stream8, { enabled stream8 with rx := x },
        { enabled stream8 with rx := { x with armed := true, fifo := [char 1, char 2] } },
        { enabled stream8 with rx := { x with armed := true } }, filling 6 0 0 [] { x with armed := true },
        filling 6 1 1 [] { x with armed := true }],
      (holding l).noNewOffers 2 ∧ ((holding l).line 2).filler.fill = l.filler.fill := by
  unfold State.noNewOffers
  decide +kernel

theorem witness_BufferCloses :
    ∀ l ∈ [filling 6 6 6 [] Receiver.rest, filling 6 6 5 [1] Receiver.rest,
        { filling 6 6 1 [1] Receiver.rest with filler := { (filling 6 6 1 [1] Receiver.rest).filler with outstanding := some four } }],
      (holding l).noNewOffers 2 ∧ (holding l).line 2 = l ∧ l.record.mode = .stream ∧
      l.filler.list = { slot := 4, phase := .active, body := ⟨0x400F00, 6⟩ } :: [⟨5, .listed, ⟨0x401000, 64⟩⟩] ∧
      l.filler.endStatus = none ∧ .data 2 ∉ (holding l).backlog.waiting := by
  unfold State.noNewOffers
  decide +kernel

/-- Every kind of entry, each policy, the first character and the last of the buffer, room and none. -/
theorem witness_FillerTakesEntry :
    let under (p : ErrorPolicy) (fill : Nat) (e : Staged) : Line :=
      { filling 6 fill fill [] { Receiver.rest with fifo := [e] } with record := { stream8 with policy := p, delimiter := some 0x21 } }
    (∀ l ∈ [under .keep 0 { char 1 with brk := true }, under .keep 1 { char 1 with brk := true },
        under .keep 0 { char 1 with framing := true }, under .drop 0 { char 1 with parity := true },
        under .close 0 { char 1 with framing := true }, under .keep 1 (marked 1), under .keep 0 (marked 1),
        under .keep 0 (char 0x21), under .keep 5 (char 1), under .keep 0 { char 1 with close := some .flush }],
      (holding l).noNewOffers 2 ∧ l.rx.fifo.length = 1 ∧ l.filler.state = .filling ∧
      (l.filler.assembly.length < 16 ∧ (l.filler.assembly = [] ∨ (0x400F00 + l.filler.fill) % 32 ≠ 0))) ∧
    (filling 64 32 31 [1] { Receiver.rest with fifo := [char 1] }).filler.assembly ≠ [] ∧ (0x400F00 + 32) % 32 = 0 ∧
    { (filling 6 0 0 [] Receiver.rest).filler with state := .closing }.state ≠ .filling := by
  unfold State.noNewOffers
  decide +kernel

/-- An open buffer that requests its write: the FIFO empty, 16 bytes assembled, the next address a multiple of 32; one in
CLOSING; and buffers that request nothing: nothing assembled, a write outstanding, room and an entry staged. -/
theorem witness_FillerTakesEntry_requests :
    let bufferAt (fill : Nat) (a : List Byte) (fifo : List Staged) (o : Option Extent) : Line :=
      let l := filling 64 fill (fill - a.length) a { Receiver.rest with fifo }
      { l with filler := { l.filler with outstanding := o } }
    let room (l : Line) : Prop := l.filler.assembly.length < 16 ∧
      (l.filler.assembly = [] ∨ ((0x400F00#40 : Addr).toNat + l.filler.fill) % 32 ≠ 0)
    let requests (l : Line) : Prop := l.filler.outstanding = none ∧ l.filler.assembly ≠ [] ∧
      (¬ room l ∨ l.rx.fifo = [] ∨ l.filler.state = .closing)
    (∀ l ∈ [bufferAt 5 [1] [] none, bufferAt 21 (List.replicate 16 1) [char 1] none, bufferAt 32 [1] [char 1] none,
        { bufferAt 5 [1] [char 1] none with filler := { (bufferAt 5 [1] [char 1] none).filler with state := .closing } }],
      l.filler.list = ⟨4, .active, ⟨0x400F00, 64⟩⟩ :: [⟨5, .listed, ⟨0x401000, 64⟩⟩] ∧ requests l) ∧
    ∀ l ∈ [bufferAt 5 [] [] none, bufferAt 5 [1] [] (some four), bufferAt 5 [1] [char 1] none],
      l.filler.list = ⟨4, .active, ⟨0x400F00, 64⟩⟩ :: [⟨5, .listed, ⟨0x401000, 64⟩⟩] ∧ ¬ requests l := by
  decide +kernel

theorem witness_BufferWriteEnds :
    let closing (a : List Byte) : Line := { filling 16 7 2 a Receiver.rest with
      filler := { (filling 16 7 2 a Receiver.rest).filler with state := .closing, reason := .full, outstanding := some four } }
    ∀ l ∈ [closing [], closing [1], filling 16 7 2 [1] Receiver.rest, filling 16 7 2 [] Receiver.rest,
        filling 16 7 2 [1] { Receiver.rest with fifo := [char 1] }],
      let s := carrying (holding l) (.rxBufferWrite 2) four
      s.inTransfer { kind := .rxBufferWrite 2, extent := four } ∧ s.noNewOffers 2 ∧ s.line 2 = l ∧ l.record.mode = .stream ∧
      l.filler.list = { slot := 4, phase := .active, body := ⟨0x400F00, 16⟩ } :: [⟨5, .listed, ⟨0x401000, 64⟩⟩] ∧
      .data 2 ∉ s.backlog.waiting := by
  unfold State.noNewOffers State.inTransfer
  decide +kernel

/-- The reads of Table 5.6: 16 bytes free, 12, 8 and 7; all read; one byte unread. -/
theorem witness_SendTaken :
    (let l := { enabled stream8 with tx := { Transmitter.rest with list := [⟨2, .listed, sendA⟩] } }
    (holding l).noNewOffers 2 ∧ (holding l).line 2 = l ∧
    (l.record.mode = .stream ∧ l.tx.state = .idle ∧ l.tx.job = none ∧ l.tx.list = ⟨2, .listed, sendA⟩ :: [])) ∧
    (holding (transmitting Transmitter.rest)).noNewOffers 2 ∧
    ∀ x ∈ [(0, 0), (4, 4), (8, 16), (9, 16), (0, 40), (0, 39)],
      let t := (transmitting { Transmitter.rest with staging := List.replicate x.1 0, readOffset := x.2 }).tx
      t.job = some { send := sendA, station := none } ∧ t.staging.length ≤ 16 := by
  unfold State.noNewOffers
  decide +kernel

/-- A SEND of a POLL line on the transmitter. -/
def sendingOnPoll (t : Transmitter) : Line :=
  { enabled poll9 with
    de := true
    tx := { t with job := some { send := sendB, station := none } }
    poll := { PollEngine.rest with list := [⟨6, .active, .send sendB⟩], attempt := .request } }
/-- Before each start: a byte staged, with CTS asserted or not; nothing staged; nothing staged after a bus error. -/
theorem witness_CharactersGoOut :
    (∀ st ∈ [TxState.brk, .gap, .ctsWait, .send], ∀ a ∈ [[], [1#8, 2#8]], ∀ bus ∈ [true, false],
      let l := transmitting { Transmitter.rest with state := st, staging := a, busError := bus }
      (holding l).noNewOffers 2 ∧ (holding l).line 2 = l ∧ l.tx.job = some { send := sendA, station := none } ∧
      l.tx.endCause = none ∧ l.tx.sent + 1 < sendA.length ∧ l.tx.outstanding = none ∧
      .transmitter 2 ∉ (holding l).backlog.waiting) ∧ { sendA with gap := 3 }.gap ≠ 0 ∧ 38 + 1 < sendA.length ∧
    ∀ st ∈ [TxState.brk, .gap, .send],
      let l := sendingOnPoll { Transmitter.rest with state := st, busError := true, sent := 1 }
      (holding l).noNewOffers 2 ∧ (holding l).line 2 = l ∧ l.record.mode = .poll ∧ l.poll.endStatus = none ∧
      .data 2 ∉ (holding l).backlog.waiting := by
  unfold State.noNewOffers
  decide +kernel

theorem witness_SendEnds :
    ∀ l ∈ [transmitting { Transmitter.rest with state := .send, sent := 39 },
        transmitting { Transmitter.rest with state := .send, sent := 15, endCause := some (.aborted, .send), outstanding := some four },
        transmitting { Transmitter.rest with state := .ctsWait, ctsTimer := some 5, sent := 11, staging := [1] },
        transmitting { Transmitter.rest with state := .ctsWait, ctsTimer := none, sent := 11, staging := [1] }],
      (holding l).noNewOffers 2 ∧ (holding l).line 2 = l ∧ l.record.mode = .stream ∧
      l.tx.job = some { send := sendA, station := none } ∧ l.tx.list = ⟨2, .active, sendA⟩ :: [⟨3, .listed, sendB⟩] ∧
      .transmitter 2 ∉ (holding l).backlog.waiting := by
  unfold State.noNewOffers
  decide +kernel

/-- The request of a poll on the transmitter. -/
def requesting (t : Transmitter) : Line :=
  { polling { PollEngine.rest with attempt := .request } with
    de := true
    tx := { t with job := some { send := { sendB with length := 2 }, station := some 0x2C } } }
theorem witness_DataReadEnds :
    (∀ l ∈ [transmitting { Transmitter.rest with state := .load, outstanding := some four },
        transmitting { Transmitter.rest with state := .brk, outstanding := some four },
        transmitting { Transmitter.rest with state := .idle, endCause := some (.aborted, .send), outstanding := some four },
        transmitting { Transmitter.rest with state := .send, endCause := some (.aborted, .send), outstanding := some four },
        requesting { Transmitter.rest with state := .send, outstanding := some four },
        requesting { Transmitter.rest with state := .send, endCause := some (.aborted, .send), outstanding := some four }],
      let s := carrying (holding l) (if l.isPoll then .payloadRead 2 else .txDataRead 2) four
      s.noNewOffers 2 ∧ s.line 2 = l ∧ s.ctl.resetWaits = false ∧ l.tx.job.isSome = true ∧ .transmitter 2 ∉ s.backlog.waiting) ∧
    (∀ l ∈ [sendingOnPoll { Transmitter.rest with state := .load, outstanding := some four },
        requesting { Transmitter.rest with state := .load, outstanding := some four }],
      let s := carrying (holding l) (.payloadRead 2) four
      s.noNewOffers 2 ∧ s.line 2 = l ∧ s.ctl.resetWaits = false ∧ l.record.mode = .poll ∧ .data 2 ∉ s.backlog.waiting ∧
      let k := { l with tx := { l.tx with state := .idle, endCause := some (.aborted, .load) },
                        poll := { l.poll with attempt := .settle, endStatus := some .aborted } }
      (carrying (holding k) (.payloadRead 2) four).noNewOffers 2 ∧
        (carrying (holding k) (.payloadRead 2) four).line 2 = k) ∧
    ([1, 2, 3, 4] : List Byte).length = four.size := by
  unfold State.noNewOffers
  decide +kernel

/-- Records of a POLL line that a DISABLE_LINE or an ABORT_LINE of class ALL reaches: a reply with bytes still to write, its
window open, and a failed attempt, both in SETTLE; a request and a SEND with a character in shift, and the same after a
payload BUS_ERROR, with a record LISTED behind; records in GUARD. -/
theorem witness_DisableAndAbort_polls :
    ∀ c ∈ [LineCommand.disable, .abort .all], ∀ l ∈ [
        polling { PollEngine.rest with attempt := .settle, outcome := .ok, fill := 4, written := 3, window := true, assembly := [1] },
        polling { PollEngine.rest with attempt := .settle, outcome := .noStart },
        polling { PollEngine.rest with attempt := .guard },
        requesting { Transmitter.rest with state := .send, sent := 1 },
        sendingOnPoll { Transmitter.rest with state := .send, sent := 1 },
        { sendingOnPoll Transmitter.rest with
          poll := { (sendingOnPoll Transmitter.rest).poll with attempt := .guard }, tx := Transmitter.rest, de := false },
        { requesting { Transmitter.rest with state := .send, sent := 1, endCause := some (.busError, .send) } with
          poll := { PollEngine.rest with
            list := [⟨6, .active, .poll pollP⟩, ⟨7, .listed, .poll pollP⟩], attempt := .request, attemptNumber := 1
            endStatus := some .busError } }],
      atHead l c .untaken ∧ l.state = .enabled ∧ l.record.mode = .poll ∧ l.reachedByAbort .all ≠ [] ∧
      l.reachedByDisable ≠ [] := by
  intro c _ l hl
  simp only [List.mem_cons, List.not_mem_nil, or_false] at hl
  rcases hl with rfl | rfl | rfl | rfl | rfl | rfl | rfl <;>
    exact ⟨atHead_of _ _ _ rfl rfl rfl, rfl, rfl, by decide +kernel, by decide +kernel⟩

theorem witness_PollAttemptBegins :
    (∀ w ∈ [PollWork.poll pollP, .send sendB], ∀ a ∈ [AttemptState.none, .guard, .release],
      let l := { enabled poll9 with poll := { PollEngine.rest with
        list := [⟨6, if a = .none then .listed else .active, w⟩], attempt := a } }
      (holding l).noNewOffers 2 ∧ (holding l).line 2 = l ∧ l.record.mode = .poll) ∧
    let l := requesting { Transmitter.rest with state := .send, sent := 2 }
    (holding l).noNewOffers 2 ∧ (holding l).line 2 = l ∧
    l.tx.job = some { send := { sendB with length := 2 }, station := some 0x2C } ∧ l.tx.endCause = none ∧
    2 + 1 ≤ l.tx.sent + 1 := by
  unfold State.noNewOffers
  decide +kernel

/-- An attempt in AWAIT or REPLY, with the entry given, of a poll with the capacity and reply end given. -/
def replying (a : AttemptState) (fifo : List Staged) (capacity : Nat) (e : ReplyEnd) (fill : Nat) : Line :=
  { enabled poll9 with
    rx := { Receiver.rest with state := .hunt, fifo }
    poll := { PollEngine.rest with
      list := [⟨6, .active, .poll { pollP with replyCapacity := capacity, replyEnd := e }⟩]
      attempt := a, attemptNumber := 1, window := true, fill, written := fill, replyTimer := some 10, gapTimer := some 9 } }
theorem witness_ReplyJudged :
    (∀ a ∈ [AttemptState.await, .reply], ∀ fifo ∈ [[], [{ char 1 with framing := true }], [{ char 0 with brk := true }], [char 1],
        [marked 1], [marked 0x2C]], ∀ e ∈ [ReplyEnd.length, .gap], ∀ x ∈ [(0, 0), (4, 0), (4, 3), (4, 4)],
      let l := replying a fifo x.1 e x.2
      (holding l).noNewOffers 2 ∧ (holding l).line 2 = l ∧ l.poll.window = true ∧ l.poll.assembly.length < 16 ∧
      l.poll.assembly = [] ∧ l.poll.outstanding = none ∧ l.poll.replyTimer ≠ none ∧ l.poll.gapTimer ≠ none) ∧
    (∀ e ∈ [ReplyEnd.length, .gap], ∀ tail ∈ [none, some 1, some 2],
      let l := replying .reply [char 1] 4 e 1
      let k := { l with poll := { l.poll with tail, gapTimer := none } }
      (holding k).noNewOffers 2 ∧ (holding k).line 2 = k ∧ k.poll.window = true ∧ k.poll.tail.map (· - 1) = tail.map (· - 1)) ∧
    let full := { replying .reply [char 1] 64 .gap 16 with
      poll := { (replying .reply [char 1] 64 .gap 16).poll with assembly := List.replicate 16 1 } }
    (holding full).noNewOffers 2 ∧ ¬ full.poll.assembly.length < 16 ∧ full.poll.window = true := by
  unfold State.noNewOffers
  decide +kernel

/-- A reply that requests its write: the FIFO empty, 16 bytes assembled, the next address a multiple of 32, in SETTLE; and
replies that request nothing: nothing assembled, a write outstanding, room and an entry staged. -/
theorem witness_ReplyJudged_requests :
    let reply (a : AttemptState) (fill : Nat) (bytes : List Byte) (fifo : List Staged) (o : Option Extent) : Line :=
      let l := replying a fifo 64 .gap fill
      { l with poll := { l.poll with assembly := bytes, outstanding := o } }
    let body : PollWork := .poll { pollP with replyCapacity := 64, replyEnd := .gap }
    let room (l : Line) : Prop := l.poll.assembly.length < 16 ∧
      (l.poll.assembly = [] ∨ ((0x300010#40 : Addr).toNat + l.poll.fill) % 32 ≠ 0)
    let requests (l : Line) : Prop := l.poll.outstanding = none ∧ l.poll.assembly ≠ [] ∧
      (¬ room l ∨ l.rx.fifo = [] ∨ l.poll.attempt = .settle)
    (∀ l ∈ [reply .reply 5 [1] [] none, reply .reply 21 (List.replicate 16 1) [char 1] none,
        reply .reply 16 [1] [char 1] none, reply .settle 5 [1] [char 1] none],
      l.poll.list = ⟨6, .active, body⟩ :: [] ∧ requests l) ∧
    ∀ l ∈ [reply .reply 5 [] [] none, reply .reply 5 [1] [] (some four), reply .reply 5 [1] [char 1] none],
      l.poll.list = ⟨6, .active, body⟩ :: [] ∧ ¬ requests l := by
  decide +kernel

/-- The reply write that ends: in REPLY with room or none and with an entry staged or none, in SETTLE with bytes still
assembled, and with a payload read outstanding after an abort decided the end. -/
theorem witness_PollRecordEnds_writes :
    ∀ l ∈ [replying .reply [] 64 .gap 7, replying .reply [char 1] 64 .gap 7,
        { replying .reply [] 64 .gap 7 with poll := { (replying .reply [] 64 .gap 7).poll with assembly := [1] } },
        { replying .reply [char 1] 64 .gap 16 with poll := { (replying .reply [char 1] 64 .gap 16).poll with assembly := [1] } },
        { replying .settle [] 64 .gap 7 with poll := { (replying .settle [] 64 .gap 7).poll with assembly := [1] } },
        { replying .settle [] 64 .gap 7 with
          poll := { (replying .settle [] 64 .gap 7).poll with endStatus := some .aborted }
          tx := { Transmitter.rest with outstanding := some four } }],
      let k := { l with poll := { l.poll with outstanding := some four } }
      let s := carrying (holding k) (.replyWrite 2) four
      s.inTransfer { kind := .replyWrite 2, extent := four } ∧ s.noNewOffers 2 ∧ s.line 2 = k ∧ k.record.mode = .poll ∧
      k.poll.list = ⟨6, .active, .poll { pollP with replyCapacity := 64, replyEnd := .gap }⟩ :: [] ∧
      k.poll.attempt ≠ .none ∧ .data 2 ∉ s.backlog.waiting := by
  unfold State.noNewOffers State.inTransfer
  decide +kernel

theorem witness_PollRecordEnds :
    (let l := sendingOnPoll { Transmitter.rest with state := .send, sent := 9 }
    (holding l).noNewOffers 2 ∧ (holding l).line 2 = l ∧ sendB.length ≤ l.tx.sent + 1 ∧ .data 2 ∉ (holding l).backlog.waiting) ∧
    (∀ o ∈ [PollOutcome.ok, .noStart, .truncated], ∀ k ∈ [1, 2], ∀ stop ∈ [true, false],
      ∀ e ∈ [none, some Status.aborted, some Status.lineDisabled],
      let l := polling { PollEngine.rest with
        attempt := .settle, outcome := o, stopFlag := stop, endStatus := e, window := decide (o = .ok) }
      let s := carrying (holding { l with poll := { l.poll with attemptNumber := k } }) (.replyWrite 2) four
      s.inTransfer { kind := .replyWrite 2, extent := four } ∧ s.noNewOffers 2 ∧
      (s.line 2).poll.list = ⟨6, .active, .poll pollP⟩ :: [] ∧ (s.line 2).poll.attempt ≠ .none ∧
      .data 2 ∉ s.backlog.waiting ∧ (s.line 2).tx.outstanding = none) ∧ pollP.retries = 1 ∧
    ∀ st ∈ [Status.busError, .aborted, .lineDisabled],
      ∀ f ∈ [requesting, sendingOnPoll], let l := f { Transmitter.rest with state := .send, endCause := some (st, .send) }
      (holding l).noNewOffers 2 ∧ (holding l).line 2 = l ∧ l.record.mode = .poll ∧ l.poll.endStatus.getD st = st ∧
      .data 2 ∉ (holding l).backlog.waiting := by
  unfold State.noNewOffers State.inTransfer
  decide +kernel


end Sys2Proof.Tests
end

/-! PROOFS of the ring writes POST and RELEASE (chapter 8): what a taken write does in each of its four cases, one equation
per case, and the statements O19 and O20 put together from them. -/

namespace Sys2Proof.Machine

/-- The first case of R141 and of R151 in the words of the spec. -/
theorem Controller.active_iff (c : Controller) : c.active = true ↔ c.state = .running ∨ c.state = .draining := by
  simp [Controller.active]

theorem Controller.active_eq_false_iff (c : Controller) :
    c.active = false ↔ ¬ (c.state = .running ∨ c.state = .draining) := by
  rw [← c.active_iff, Bool.not_eq_true]

/-! ### POST (08 R141) -/

theorem exec_post_open (v : Word) (s : State) (h : s.ctl.windowOpen = true) :
    exec (.post v) s = .next (s.takePost (ringNumber v) (ringPosition v)) :=
  s.write_open (fun _ => s.takePost (ringNumber v) (ringPosition v)) h

section
variable {s : State} {q : SqNo} {tail : Nat}

theorem State.takePost_inactive (h : s.ctl.active = false) : s.takePost q tail = s.misplaced := by
  simp [State.takePost, h]

theorem State.takePost_notInRing (ha : s.ctl.active = true) (h : sqSize s.block q = 0 ∨ sqSize s.block q ≤ tail) :
    s.takePost q tail = s.outOfRange := by
  simp [State.takePost, ha, h]

/-- A tail within the ring is refused exactly if it takes posted records back. -/
theorem State.takePost_inRing (ha : s.ctl.active = true) (h : tail < sqSize s.block q) :
    s.takePost q tail =
      let r := s.fetcher.rings[q]
      if postedCount (sqSize s.block q) r tail < postedCount (sqSize s.block q) r r.tail then s.outOfRange
      else { s with fetcher := { s.fetcher with rings := s.fetcher.rings.set q { r with tail := tail } } } := by
  have hring : ¬ (sqSize s.block q = 0 ∨ sqSize s.block q ≤ tail) := by omega
  simp [State.takePost, ha, hring]

end

/-- Settles O19: the four cases of R141, each by the equation of `takePost` for it. -/
theorem postWrite : Obligations.PostWrite := by
  intro v s hopen q tail size r refused active
  have hexec : exec (.post v) s = .next (s.takePost q tail) := exec_post_open v s hopen
  have hactive (h : active) : s.ctl.active = true := s.ctl.active_iff.mpr h
  refine ⟨fun hidle => ?notActive, fun ha hout => ?notInRing, fun ha hin hback => ?takesBack, fun ha hin hkeep => ?accepted⟩
  case notActive => exact hexec.trans (congrArg _ (State.takePost_inactive (s.ctl.active_eq_false_iff.mpr hidle)))
  case notInRing => exact hexec.trans (congrArg _ (State.takePost_notInRing (hactive ha) hout))
  case takesBack =>
    rw [State.takePost_inRing (hactive ha) hin] at hexec
    exact hexec.trans (congrArg _ (if_pos hback))
  case accepted =>
    rw [State.takePost_inRing (hactive ha) hin] at hexec
    exact hexec.trans (congrArg _ (if_neg (Nat.not_lt.mpr hkeep)))

/-! ### RELEASE (08 R151) -/

theorem exec_release_open (v : Word) (s : State) (h : s.ctl.windowOpen = true) :
    exec (.release v) s = .next (s.takeRelease (ringNumber v) (ringPosition v)) :=
  s.write_open (fun _ => s.takeRelease (ringNumber v) (ringPosition v)) h

section
variable {s : State} {q : CqNo} {head : Nat}

theorem State.takeRelease_inactive (h : s.ctl.active = false) : s.takeRelease q head = s.misplaced := by
  simp [State.takeRelease, h]

theorem State.takeRelease_notInRing (ha : s.ctl.active = true) (h : cqSize s.block q = 0 ∨ cqSize s.block q ≤ head) :
    s.takeRelease q head = s.outOfRange := by
  simp [State.takeRelease, ha, h]

/-- A head within the ring is refused exactly if it releases more than the CQ holds. -/
theorem State.takeRelease_inRing (ha : s.ctl.active = true) (h : head < cqSize s.block q) :
    s.takeRelease q head =
      let r := s.writer.rings[q]
      let amount := releasedAmount (cqSize s.block q) r head
      if r.occupancy < amount then s.outOfRange
      else
        { s with writer := { s.writer with
            rings := s.writer.rings.set q { r with occupancy := r.occupancy - amount } } } := by
  have hring : ¬ (cqSize s.block q = 0 ∨ cqSize s.block q ≤ head) := by omega
  simp [State.takeRelease, ha, hring]

end

/-- Settles O20: the four cases of R151, each by the equation of `takeRelease` for it. -/
theorem releaseWrite : Obligations.ReleaseWrite := by
  intro v s hopen q head size r apart amount refused active
  have hexec : exec (.release v) s = .next (s.takeRelease q head) := exec_release_open v s hopen
  have hactive (h : active) : s.ctl.active = true := s.ctl.active_iff.mpr h
  refine ⟨fun hidle => ?notActive, fun ha hout => ?notInRing, fun ha hin hmore => ?tooMuch, fun ha hin hheld => ?accepted⟩
  case notActive => exact hexec.trans (congrArg _ (State.takeRelease_inactive (s.ctl.active_eq_false_iff.mpr hidle)))
  case notInRing => exact hexec.trans (congrArg _ (State.takeRelease_notInRing (hactive ha) hout))
  case tooMuch =>
    rw [State.takeRelease_inRing (hactive ha) hin] at hexec
    exact hexec.trans (congrArg _ (if_pos hmore))
  case accepted =>
    rw [State.takeRelease_inRing (hactive ha) hin] at hexec
    exact hexec.trans (congrArg _ (if_neg (Nat.not_lt.mpr hheld)))

end Sys2Proof.Machine

/-! PROOFS of the notification levels (chapter 9): the in-service set and its top, when a CQ may be claimed and what a CLAIM
chooses, and what each command can do to the notification unit. The statements O5, O22 and O23 are put together from them. -/

namespace Sys2Proof.Machine

/-! ### The in-service set and its top (09 R158) -/

theorem inService_pos {set : BitVec 5} {k : Nat} (h : inService set k = true) : 1 ≤ k := by
  simp only [inService, Bool.and_eq_true, decide_eq_true_eq] at h
  exact h.1

theorem inService_le_five {set : BitVec 5} {k : Nat} (h : inService set k = true) : k ≤ 5 := by
  simp only [inService, Bool.and_eq_true] at h
  have := BitVec.lt_of_getLsbD h.2
  omega

theorem inService_and (set mask : BitVec 5) (j : Nat) :
    inService (set &&& mask) j = (inService set j && mask.getLsbD (j - 1)) := by
  simp only [inService, BitVec.getLsbD_and, Bool.and_assoc]

theorem getLsbD_levelBit {j k : Nat} (hj : 1 ≤ j) (hj5 : j ≤ 5) (hk : 1 ≤ k) :
    (levelBit k).getLsbD (j - 1) = decide (j = k) := by
  rw [levelBit, BitVec.getLsbD_shiftLeft, BitVec.getLsbD_one, Bool.eq_iff_iff]
  simp only [Bool.and_eq_true, Bool.not_eq_true', decide_eq_true_eq, decide_eq_false_iff_not]
  omega

/-- Without a level's bit the set has lost that member and no other. -/
theorem inService_without (set : BitVec 5) {k : Nat} (hk : 1 ≤ k) (j : Nat) :
    inService (set &&& ~~~ levelBit k) j = (inService set j && j != k) := by
  rw [inService_and]
  cases hj : inService set j with
  | false => rfl
  | true =>
    have h1 := inService_pos hj
    have h5 := inService_le_five hj
    have hwidth : j - 1 < 5 := by omega
    rw [BitVec.getLsbD_not, getLsbD_levelBit h1 h5 hk]
    simp [hwidth, bne, beq_eq_decide]

theorem inService_topLevel {set : BitVec 5} (h : topLevel set ≠ 0) : inService set (topLevel set) = true := by
  unfold topLevel at h ⊢
  split_ifs at h ⊢ <;> simp_all

theorem le_topLevel {set : BitVec 5} {k : Nat} (h : inService set k = true) : k ≤ topLevel set := by
  have h1 := inService_pos h
  have h5 := inService_le_five h
  unfold topLevel
  interval_cases k <;> grind

/-- The top is the largest member. -/
theorem topLevel_eq {set : BitVec 5} {k : Nat} (h : inService set k = true)
    (hmax : ∀ j, inService set j = true → j ≤ k) : topLevel set = k := by
  have hle := le_topLevel h
  have h1 := inService_pos h
  exact Nat.le_antisymm (hmax _ (inService_topLevel (by omega))) hle

/-- A level is above the top exactly if it is above every level in service. -/
theorem topLevel_lt_iff (set : BitVec 5) {n : Nat} (hn : 1 ≤ n) :
    topLevel set < n ↔ ∀ k, inService set k = true → k < n := by
  refine ⟨fun h k hk => Nat.lt_of_le_of_lt (le_topLevel hk) h, fun h => ?_⟩
  by_cases h0 : topLevel set = 0
  · omega
  · exact h _ (inService_topLevel h0)

/-! ### The condition of NOTIFY (09 R160) -/

theorem NotifyLevel.code_bounds (l : NotifyLevel) : 1 ≤ l.code ∧ l.code ≤ 4 := by
  cases l <;> decide

theorem cqLevel_le_four (block : Option Block) (q : CqNo) : cqLevel block q ≤ 4 := by
  cases block with
  | none => exact Nat.zero_le 4
  | some b => exact b.cqs[q].level.code_bounds.2

/-- Only a loaded block enables a CQ, and in a loaded block every CQ has a level. -/
theorem one_le_cqLevel {block : Option Block} {q : CqNo} (h : notifyEnabled block q = true) : 1 ≤ cqLevel block q := by
  cases block with
  | none => cases h
  | some b => exact b.cqs[q].level.code_bounds.1

theorem faultEligible_iff (nt : Notification) :
    faultEligible nt = true ↔ nt.faultRequest = true ∧ inService nt.inService 5 = false := by
  simp [faultEligible]

theorem claimable_iff (block : Option Block) (nt : Notification) (q : CqNo) :
    claimable block nt q = true ↔
      notifyEnabled block q = true ∧ nt.cqs[q].flag = true ∧
        ∀ k, inService nt.inService k = true → k < cqLevel block q := by
  simp only [claimable, Bool.and_eq_true, decide_eq_true_eq, and_assoc]
  refine and_congr_right fun henabled => and_congr_right fun _ => ?_
  exact topLevel_lt_iff nt.inService (one_le_cqLevel henabled)

theorem mem_ringNumbers (q : Fin 4) : q ∈ ringNumbers := by revert q; decide

/-- The model's condition is R160 in its own terms. -/
theorem State.notifyCondition_iff (s : State) : notifyCondition s.block s.notice = true ↔ s.notifyWanted := by
  simp only [notifyCondition, Bool.or_eq_true, List.any_eq_true, faultEligible_iff, claimable_iff, mem_ringNumbers,
    true_and, State.notifyWanted]

theorem State.notifyFollows_iff (s : State) :
    s.NotifyFollows ↔ s.notice.pin = notifyCondition s.block s.notice := by
  rw [State.NotifyFollows, ← s.notifyCondition_iff, ← Bool.eq_iff_iff]

theorem State.updateNotify_follows (s : State) : s.updateNotify.NotifyFollows :=
  s.updateNotify.notifyFollows_iff.mpr rfl

/-- Whether NOTIFY follows rests on the loaded block and the notification unit alone. -/
theorem State.NotifyFollows.congr {s t : State} (h : s.NotifyFollows) (hblock : t.block = s.block)
    (hnotice : t.notice = s.notice) : t.NotifyFollows := by
  rw [State.notifyFollows_iff] at h ⊢
  rw [hblock, hnotice, h]

theorem State.takeReset_follows (s : State) (cause : ResetCause) (qbase : Addr) (high : Bool) :
    (s.takeReset cause qbase high).NotifyFollows :=
  (State.notifyFollows_iff _).mpr (by decide : Notification.rest.pin = notifyCondition none .rest)

/-! ### What a CLAIM chooses (09 R161) -/

theorem foldl_betterCq_mem {block : Option Block} {q : CqNo} (qs : List CqNo) (best : Option CqNo)
    (h : qs.foldl (betterCq block) best = some q) : best = some q ∨ q ∈ qs := by
  induction qs generalizing best with
  | nil => exact .inl h
  | cons p ps ih =>
    rcases ih _ h with hbetter | hmem
    · have hchoice : betterCq block best p = best ∨ betterCq block best p = some p := by
        cases best with
        | none => exact .inr rfl
        | some b => exact (ite_eq_or_eq ..).symm
      rcases hchoice with hbest | hp
      · exact .inl (hbest.symm.trans hbetter)
      · rw [hp, Option.some.injEq] at hbetter
        exact .inr (hbetter ▸ List.mem_cons_self)
    · exact .inr (List.mem_cons_of_mem _ hmem)

theorem bestCq_claimable {block : Option Block} {nt : Notification} {q : CqNo} (h : bestCq block nt = some q) :
    claimable block nt q = true := by
  rcases foldl_betterCq_mem _ _ h with hnone | hmem
  · cases hnone
  · exact (List.mem_filter.mp hmem).2

theorem claimChoice_fault {block : Option Block} {nt : Notification} (h : claimChoice block nt = .fault) :
    faultEligible nt = true := by
  unfold claimChoice at h
  split_ifs at h with heligible
  · exact heligible
  · split at h <;> cases h

theorem claimChoice_cq {block : Option Block} {nt : Notification} {q : CqNo} (h : claimChoice block nt = .cq q) :
    claimable block nt q = true := by
  unfold claimChoice at h
  split_ifs at h
  split at h
  · next hbest => cases h; exact bestCq_claimable hbest
  · cases h

/-- The level a choice puts into service; none for NONE. -/
def Claim.level (block : Option Block) : Claim → Option Nat
  | .fault => some 5
  | .cq q => some (cqLevel block q)
  | .nothing => none

theorem State.takeClaim_inService (s : State) (c : Claim) :
    (s.takeClaim c).notice.inService =
      (c.level s.block).elim s.notice.inService fun k => s.notice.inService ||| levelBit k := by
  cases c <;> rfl

/-- The level a CLAIM puts into service is above the top (09 R161, R162). -/
theorem claimChoice_level_above {block : Option Block} {nt : Notification} {k : Nat}
    (h : (claimChoice block nt).level block = some k) : topLevel nt.inService < k ∧ k ≤ 5 := by
  cases hchoice : claimChoice block nt with
  | fault =>
    rw [hchoice] at h
    cases h
    have hnot5 := ((faultEligible_iff nt).mp (claimChoice_fault hchoice)).2
    refine ⟨(topLevel_lt_iff _ (by decide)).mpr fun k hk => ?_, Nat.le_refl 5⟩
    have hne : k ≠ 5 := by rintro rfl; simp [hnot5] at hk
    have := inService_le_five hk
    omega
  | cq q =>
    rw [hchoice] at h
    cases h
    obtain ⟨henabled, _, habove⟩ := (claimable_iff block nt q).mp (claimChoice_cq hchoice)
    exact ⟨(topLevel_lt_iff _ (one_le_cqLevel henabled)).mpr habove, Nat.le_succ_of_le (cqLevel_le_four block q)⟩
  | nothing => rw [hchoice] at h; cases h

/-! ### ENDSERV (09 R164) -/

/-- The state after the top of the in-service set was removed, NOTIFY not yet updated. -/
def State.withoutTop (s : State) : State :=
  { s with notice := { s.notice with inService := s.notice.inService &&& ~~~ levelBit (topLevel s.notice.inService) } }

theorem exec_endserv (v : Word) (s : State) :
    exec (.endserv v) s = s.write fun _ => if topLevel s.notice.inService = 0 then s else s.withoutTop.updateNotify :=
  rfl

/-- Settles O22: with the empty set there is no top; otherwise the greatest member is the top, and its bit is removed. -/
theorem endservWrite : Obligations.EndservWrite := by
  intro v s hopen
  rw [exec_endserv, State.write_open _ _ hopen]
  refine ⟨fun hempty => ?empty, fun k hk hmax => ?member⟩
  case empty => rw [hempty]; rfl
  case member =>
    obtain rfl : topLevel s.notice.inService = k := topLevel_eq hk hmax
    have hpos := inService_pos hk
    rw [if_neg (by omega)]
    exact ⟨_, rfl, s.withoutTop.updateNotify_follows, inService_without _ hpos, rfl⟩

/-! ### What a command does to the notification unit -/

/-- From `s` to `t` the in-service set stays, and NOTIFY still follows if it did: either nothing that R160 looks at has
changed, or NOTIFY was updated. -/
inductive State.Carries (s t : State) : Prop where
  | kept (block : t.block = s.block) (notice : t.notice = s.notice)
  | updated (follows : t.NotifyFollows) (inService : t.notice.inService = s.notice.inService)

theorem State.Carries.refl (s : State) : s.Carries s := .kept rfl rfl

theorem State.Carries.follows {s t : State} (h : s.Carries t) (hs : s.NotifyFollows) : t.NotifyFollows := by
  cases h with
  | kept hblock hnotice => exact hs.congr hblock hnotice
  | updated hfollows _ => exact hfollows

theorem State.Carries.inService_eq {s t : State} (h : s.Carries t) : t.notice.inService = s.notice.inService := by
  cases h with
  | kept _ hnotice => rw [hnotice]
  | updated _ hset => exact hset

theorem State.Carries.trans {s t u : State} (hst : s.Carries t) (htu : t.Carries u) : s.Carries u := by
  cases htu with
  | updated hfollows hset => exact .updated hfollows (hset.trans hst.inService_eq)
  | kept hblock hnotice =>
    cases hst with
    | kept hblock' hnotice' => exact .kept (hblock.trans hblock') (hnotice.trans hnotice')
    | updated hfollows hset => exact .updated (hfollows.congr hblock hnotice) ((congrArg _ hnotice).trans hset)

/-- Where a step begins with a change that does not touch the notification unit. -/
theorem State.Carries.of_unchanged {s s' t : State} (h : s'.Carries t) (hblock : s'.block = s.block)
    (hnotice : s'.notice = s.notice) : s.Carries t :=
  (State.Carries.kept hblock hnotice).trans h

/-- Whatever the next state of an outcome, it carries the notification unit on. -/
def State.CarriesTo (s : State) (o : Host.Outcome State Fault Refusal) : Prop := ∀ t, o = .next t → s.Carries t

theorem State.Carries.next {s t : State} (h : s.Carries t) : s.CarriesTo (.next t) := by
  intro u hu
  cases hu
  exact h

theorem State.CarriesTo.refl (s : State) : s.CarriesTo (.next s) := (State.Carries.refl s).next

theorem State.write_carries {s : State} {f : Controller → State} (h : s.Carries (f s.ctl)) : s.CarriesTo (s.write f) := by
  unfold State.write
  split
  · exact h.next
  · exact .refl s

theorem State.updateLine_carries (s : State) (n : LineNo) (l : Line) : s.Carries (s.updateLine n l) :=
  .kept (by simp) (by simp)

theorem onLine_carries (n : LineNo) (f : Line → Option Line) (s : State) : s.CarriesTo (onLine n f s) := by
  unfold onLine
  split
  · exact (State.updateLine_carries _ _ _).next
  · exact .refl s

theorem State.endTransfer_carries {s : State} {k : TransferKind → Bool}
    {act : Transfer → State → Host.Outcome State Fault Refusal}
    (h : ∀ t, s.transferOver.CarriesTo (act t s.transferOver)) : s.CarriesTo (s.endTransfer k act) := by
  unfold State.endTransfer
  split
  · next t _ =>
    split_ifs
    · exact State.Carries.next (.kept rfl rfl)
    · exact fun u hu => .of_unchanged (h t u hu) rfl rfl
    · exact .refl s
  · exact .refl s

/-! #### Shared operations -/

theorem State.drained_carries (s : State) : s.Carries s.drained := by
  unfold State.drained
  split
  · exact .kept rfl rfl
  · exact .refl s

theorem State.enterFaulted_carries (s : State) (code : FaultCode) (source : FaultSource) :
    s.Carries (s.enterFaulted code source) :=
  .updated (State.updateNotify_follows _) rfl

theorem State.noteWritten_carries (s : State) (q : CqNo) (urgent : Bool) : s.Carries (s.noteWritten q urgent) := by
  unfold State.noteWritten
  split
  · split
    · exact .updated (State.updateNotify_follows _) rfl
    · exact .refl s
  · exact .refl s

theorem State.descriptorReadOver_carries (s : State) (k : Fin 4) (e : ReadEnd Record) :
    s.Carries (s.descriptorReadOver k e) := by
  unfold State.descriptorReadOver
  split
  · exact .kept rfl rfl
  · split
    · exact .of_unchanged (State.enterFaulted_carries _ _ _) rfl rfl
    · split
      · exact .kept rfl rfl
      · dsimp only
        split
        · exact .updated (State.updateNotify_follows _) rfl
        · exact .updated (State.updateNotify_follows _) rfl

theorem State.route_carries (s : State) (q : SqNo) (slot : Slot) (line : LineNo) (b : Body) :
    s.Carries (s.route q slot line b) := by
  cases b with
  | fence | command => exact .kept rfl rfl
  | send | buffer | poll =>
    simp only [State.route]
    split_ifs <;> exact .kept rfl rfl

theorem State.dispatch_carries (s : State) (q : SqNo) (slot : Slot) (bytes : List Byte) :
    s.Carries (s.dispatch q slot bytes) := by
  unfold State.dispatch
  split
  · exact .kept rfl rfl
  · exact .of_unchanged (State.route_carries _ _ _ _ _) rfl rfl

theorem State.giveUpCredit_carries (s : State) (q : SqNo) : s.Carries (s.giveUpCredit q) := by
  unfold State.giveUpCredit
  split
  · exact .kept rfl rfl
  · exact .refl s

theorem State.settle_carries (ps : List Producer) (k : Nat) (s : State) : s.Carries (State.settle ps k s) :=
  .kept (by simp) (by simp)

theorem State.recordFetched_carries (s : State) (q : SqNo) (slot : Slot) (bytes : List Byte) :
    s.Carries (s.recordFetched q slot bytes) := by
  refine .trans ?_ (State.settle_carries _ _ _)
  refine .trans ?_ (State.giveUpCredit_carries _ q)
  exact .of_unchanged (State.dispatch_carries _ _ _ _) rfl rfl

theorem State.takeEntry_carries (s : State) (b : Block) (q : CqNo) (e : BacklogEntry) : s.Carries (s.takeEntry b q e) := by
  cases e <;> exact .kept rfl rfl

/-! #### The host's accesses -/

theorem execStart_carries (upper : BitVec 24) (s : State) : s.CarriesTo (execStart upper s) := by
  refine State.write_carries ?_
  split <;> exact .kept rfl rfl

theorem execStop_carries (upper : BitVec 24) (s : State) : s.CarriesTo (execStop upper s) := by
  refine State.write_carries ?_
  split
  · refine .trans ?_ (State.drained_carries _)
    exact .of_unchanged (State.settle_carries _ _ _) rfl rfl
  · exact .kept rfl rfl
  · exact .kept rfl rfl

theorem execControlUnknownCommand_carries (value : Word) (s : State) :
    s.CarriesTo (execControlUnknownCommand value s) := by
  refine State.write_carries ?_
  split <;> exact .kept rfl rfl

theorem execReset_carries (upper : BitVec 24) (s : State) : s.CarriesTo (execReset upper s) :=
  State.write_carries (.kept rfl rfl)

theorem execStatusWrite_carries (value : Word) (s : State) : s.CarriesTo (execStatusWrite value s) :=
  State.write_carries (.kept rfl rfl)

theorem execQbaseLoWrite_carries (value : Word) (s : State) : s.CarriesTo (execQbaseLoWrite value s) := by
  refine State.write_carries ?_
  split <;> exact .kept rfl rfl

theorem execQbaseHiWrite_carries (value : Word) (s : State) : s.CarriesTo (execQbaseHiWrite value s) := by
  refine State.write_carries ?_
  split <;> exact .kept rfl rfl

theorem execPost_carries (value : Word) (s : State) : s.CarriesTo (execPost value s) := by
  refine State.write_carries ?_
  simp only [State.takePost]
  split_ifs <;> exact .kept rfl rfl

theorem execRelease_carries (value : Word) (s : State) : s.CarriesTo (execRelease value s) := by
  refine State.write_carries ?_
  simp only [State.takeRelease]
  split_ifs <;> exact .kept rfl rfl

/-! #### Ends of transfers -/

theorem execDescriptorReadEnd_carries (e : ReadEnd Record) (s : State) : s.CarriesTo (execDescriptorReadEnd e s) := by
  refine State.endTransfer_carries fun t => ?_
  split
  · exact (State.descriptorReadOver_carries _ _ _).next
  · exact .refl _

theorem execRecordFetchEnd_carries (e : ReadEnd Record) (s : State) : s.CarriesTo (execRecordFetchEnd e s) := by
  refine State.endTransfer_carries fun t => ?_
  split
  · cases e with
    | ok bytes => exact State.Carries.next (.of_unchanged (State.recordFetched_carries _ _ _ _) rfl rfl)
    | busError => exact State.Carries.next (.of_unchanged (State.enterFaulted_carries _ _ _) rfl rfl)
  · exact .refl _

theorem execReportWriteEnd_carries (e : WriteEnd) (s : State) : s.CarriesTo (execReportWriteEnd e s) := by
  refine State.endTransfer_carries fun t => ?_
  split
  · exact State.Carries.next (.of_unchanged (State.updateLine_carries _ _ _) rfl rfl)
  · exact .refl _

theorem execRxBufferWriteEnd_carries (n : LineNo) (e : WriteEnd) (s : State) :
    s.CarriesTo (execRxBufferWriteEnd n e s) := by
  refine State.endTransfer_carries fun t => ?_
  cases e <;> exact (State.updateLine_carries _ _ _).next

theorem execReplyWriteEnd_carries (n : LineNo) (e : WriteEnd) (s : State) : s.CarriesTo (execReplyWriteEnd n e s) := by
  refine State.endTransfer_carries fun t => ?_
  cases e <;> exact (State.updateLine_carries _ _ _).next

theorem execTxDataReadEnd_carries (n : LineNo) (e : ReadEnd (List Byte)) (cts : Bool) (s : State) :
    s.CarriesTo (execTxDataReadEnd n e cts s) := by
  refine State.endTransfer_carries fun t => ?_
  cases e with
  | ok bytes =>
    dsimp only
    split
    · exact (State.updateLine_carries _ _ _).next
    · exact State.Carries.next (.kept rfl rfl)
  | busError => exact (State.updateLine_carries _ _ _).next

theorem execCompletionWriteEnd_carries (e : WriteEnd) (s : State) : s.CarriesTo (execCompletionWriteEnd e s) := by
  refine State.endTransfer_carries fun t => ?_
  split
  · cases e with
    | ok => exact State.Carries.next (.of_unchanged (State.noteWritten_carries _ _ _) rfl rfl)
    | busError => exact (State.enterFaulted_carries _ _ _).next
  · exact .refl _

/-! #### Steps of the part's own units -/

theorem execFetchIssue_carries (s : State) : s.CarriesTo (execFetchIssue s) := by
  unfold execFetchIssue
  split
  · split
    · exact State.Carries.next (.kept rfl rfl)
    · exact .refl s
  · exact .refl s

theorem execFenceWaitSetEmpty_carries (q : SqNo) (s : State) : s.CarriesTo (execFenceWaitSetEmpty q s) := by
  unfold execFenceWaitSetEmpty
  split
  · split
    · exact State.Carries.next (.of_unchanged (State.settle_carries _ _ _) rfl rfl)
    · exact .refl s
  · exact .refl s

theorem execQueryLine_carries (n : LineNo) (s : State) : s.CarriesTo (execQueryLine n s) := by
  unfold execQueryLine
  dsimp only
  split
  · exact State.Carries.next (.kept rfl rfl)
  · exact .refl s

theorem execEventOffer_carries (n : LineNo) (s : State) : s.CarriesTo (execEventOffer n s) := by
  unfold execEventOffer
  split
  · exact State.Carries.next (.kept (by simp) (by simp))
  · exact .refl s

theorem execBacklogGrant_carries (s : State) : s.CarriesTo (execBacklogGrant s) := by
  unfold execBacklogGrant
  split
  · split
    · exact State.Carries.next (.kept (by simp) (by simp))
    · exact .refl s
  · exact .refl s

theorem execWriterTakeEntry_carries (s : State) : s.CarriesTo (execWriterTakeEntry s) := by
  unfold execWriterTakeEntry
  split
  · split
    · split
      · exact (State.takeEntry_carries _ _ _ _).next
      · exact .refl s
    · exact .refl s
  · exact .refl s

theorem execPortGrant_carries (s : State) : s.CarriesTo (execPortGrant s) := by
  unfold execPortGrant
  split
  · exact State.Carries.next (.kept rfl rfl)
  · exact .refl s

theorem execDelayTimerExpire_carries (q : CqNo) (s : State) : s.CarriesTo (execDelayTimerExpire q s) := by
  unfold execDelayTimerExpire
  dsimp only
  split
  · exact State.Carries.next (.updated (State.updateNotify_follows _) rfl)
  · exact .refl s

/-! ### What changes the in-service set (09 R158) -/

/-- Command `c` takes the in-service set of `s` to that of `t` in one of the three ways of R158. -/
inductive State.ServiceChanges (s : State) : Instr → State → Prop where
  | claim (lanes : Lanes) (t : State) (k : Nat) (above : topLevel s.notice.inService < k) (le : k ≤ 5)
      (added : t.notice.inService = s.notice.inService ||| levelBit k) : s.ServiceChanges (.claim lanes) t
  | endserv (v : Word) (t : State)
      (removed : t.notice.inService = s.notice.inService &&& ~~~ levelBit (topLevel s.notice.inService)) :
      s.ServiceChanges (.endserv v) t
  | reset (c : Instr) (t : State) (isReset : c = .controllerResetTake ∨ c = .deviceResetAssert ∨ c = .deviceResetRelease)
      (emptied : t.notice.inService = 0) : s.ServiceChanges c t

/-- What command `c` can do to the notification unit: carry it on, or change the in-service set with NOTIFY following. -/
def State.Notifies (s : State) (c : Instr) (t : State) : Prop :=
  s.Carries t ∨ s.ServiceChanges c t ∧ t.NotifyFollows

theorem State.takeReset_notifies (s : State) {c : Instr} (cause : ResetCause) (qbase : Addr) (high : Bool)
    (hc : c = .controllerResetTake ∨ c = .deviceResetAssert ∨ c = .deviceResetRelease) :
    s.Notifies c (s.takeReset cause qbase high) :=
  .inr ⟨.reset _ _ hc rfl, s.takeReset_follows cause qbase high⟩

theorem execControllerResetTake_notifies {s t : State} (h : execControllerResetTake s = .next t) :
    s.Notifies .controllerResetTake t := by
  unfold execControllerResetTake at h
  split at h <;> cases h
  · exact s.takeReset_notifies _ _ _ (.inl rfl)
  · exact .inl (.refl _)

theorem execDeviceResetAssert_notifies {s t : State} (h : execDeviceResetAssert s = .next t) :
    s.Notifies .deviceResetAssert t := by
  unfold execDeviceResetAssert at h
  split at h <;> cases h
  · exact s.takeReset_notifies _ _ _ (.inr (.inl rfl))
  · exact .inl (.refl _)

theorem execDeviceResetRelease_notifies {s t : State} (h : execDeviceResetRelease s = .next t) :
    s.Notifies .deviceResetRelease t := by
  unfold execDeviceResetRelease at h
  split at h <;> cases h
  · exact .inl (.refl _)
  · exact s.takeReset_notifies _ _ _ (.inr (.inr rfl))

theorem execClaim_notifies {lanes : Lanes} {s t : State} (h : execClaim lanes s = .next t) :
    s.Notifies (.claim lanes) t := by
  unfold execClaim at h
  split at h <;> cases h
  case isFalse => exact .inl (.kept rfl rfl)
  case isTrue =>
    have hset := s.takeClaim_inService (claimChoice s.block s.notice)
    have hfollows := (s.takeClaim (claimChoice s.block s.notice)).updateNotify_follows
    cases hlevel : (claimChoice s.block s.notice).level s.block with
    | none =>
      rw [hlevel] at hset
      exact .inl (.updated (hfollows.congr rfl rfl) hset)
    | some k =>
      rw [hlevel] at hset
      obtain ⟨habove, hle⟩ := claimChoice_level_above hlevel
      exact .inr ⟨.claim lanes _ k habove hle hset, hfollows.congr rfl rfl⟩

theorem execEndserv_notifies {v : Word} {s t : State} (h : exec (.endserv v) s = .next t) : s.Notifies (.endserv v) t := by
  cases hopen : s.ctl.windowOpen with
  | false =>
    rw [exec_endserv, State.write_closed _ _ hopen] at h
    cases h
    exact .inl (.refl _)
  | true =>
    rw [exec_endserv, State.write_open _ _ hopen] at h
    split at h <;> cases h
    · exact .inl (.refl _)
    · exact .inr ⟨.endserv v _ rfl, s.withoutTop.updateNotify_follows⟩

/-- What each command can do to the notification unit. A command that is a step of one line does nothing to it, whatever the
line's step is. -/
theorem exec_notifies {c : Instr} {s t : State} (h : exec c s = .next t) : s.Notifies c t := by
  cases c with
  | claim lanes => exact execClaim_notifies h
  | endserv v => exact execEndserv_notifies h
  | controllerResetTake => exact execControllerResetTake_notifies h
  | deviceResetAssert => exact execDeviceResetAssert_notifies h
  | deviceResetRelease => exact execDeviceResetRelease_notifies h
  | start upper => exact .inl (execStart_carries upper s t h)
  | stop upper => exact .inl (execStop_carries upper s t h)
  | reset upper => exact .inl (execReset_carries upper s t h)
  | statusWrite value => exact .inl (execStatusWrite_carries value s t h)
  | controlUnknownCommand value => exact .inl (execControlUnknownCommand_carries value s t h)
  | qbaseLoWrite value => exact .inl (execQbaseLoWrite_carries value s t h)
  | qbaseHiWrite value => exact .inl (execQbaseHiWrite_carries value s t h)
  | post value => exact .inl (execPost_carries value s t h)
  | release value => exact .inl (execRelease_carries value s t h)
  | registerWriteIgnored w => exact .inl (State.CarriesTo.refl s t h)
  | descriptorReadEnd e => exact .inl (execDescriptorReadEnd_carries e s t h)
  | recordFetchEnd e => exact .inl (execRecordFetchEnd_carries e s t h)
  | reportWriteEnd e => exact .inl (execReportWriteEnd_carries e s t h)
  | rxBufferWriteEnd n e => exact .inl (execRxBufferWriteEnd_carries n e s t h)
  | replyWriteEnd n e => exact .inl (execReplyWriteEnd_carries n e s t h)
  | txDataReadEnd n e cts => exact .inl (execTxDataReadEnd_carries n e cts s t h)
  | completionWriteEnd e => exact .inl (execCompletionWriteEnd_carries e s t h)
  | fetchIssue => exact .inl (execFetchIssue_carries s t h)
  | fenceWaitSetEmpty q => exact .inl (execFenceWaitSetEmpty_carries q s t h)
  | queryLine n => exact .inl (execQueryLine_carries n s t h)
  | eventOffer n => exact .inl (execEventOffer_carries n s t h)
  | backlogGrant => exact .inl (execBacklogGrant_carries s t h)
  | writerTakeEntry => exact .inl (execWriterTakeEntry_carries s t h)
  | drainComplete => exact .inl ((State.drained_carries s).next t h)
  | portGrant => exact .inl (execPortGrant_carries s t h)
  | delayTimerExpire q => exact .inl (execDelayTimerExpire_carries q s t h)
  | configureLine | enableLine | disableLine | disabledStep | abortLine | resumeRx | flushRx | characterComplete
  | idleGapTimerFire | fillerTakeEntry | txTakeRecord | breakEnd | txCharacterSent | gapEnd | ctsAssert | ctsWaitTimeout
  | pollTakeRecord | guardEnd | pollTakeEntry | replyTimeout | replyGapFire | attemptEnd | fallingEdge | startCheckSample
  | dataBitSample | waitMarkEnd | awaitEntry => exact .inl (onLine_carries _ _ s t h)

/-- Settles O23: a command that does not carry the set on changes it in one of the three ways. -/
theorem inServiceChanges : Obligations.InServiceChanges := by
  intro c s t hexec hchanged
  rcases exec_notifies hexec with hcarries | ⟨hchange, _⟩
  · exact absurd hcarries.inService_eq hchanged
  · cases hchange with
    | claim lanes _ k above le added => exact .inl ⟨lanes, k, rfl, by omega, le, above, added⟩
    | endserv v _ removed => exact .inr (.inl ⟨v, rfl, removed⟩)
    | reset _ _ isReset emptied => exact .inr (.inr ⟨isReset, emptied⟩)

/-- Settles O5: a command either carries NOTIFY on or leaves it following; taking it from the queue changes nothing that R160
looks at. -/
theorem notifyFollowsKept : Obligations.NotifyFollowsKept := by
  intro s t hs hstep
  cases hqueue : s.pending with
  | nil =>
    simp only [step, hqueue] at hstep
    cases hstep
    exact hs
  | cons c rest =>
    simp only [step, hqueue] at hstep
    rcases exec_notifies hstep with hcarries | ⟨_, hfollows⟩
    · exact hcarries.follows (hs.congr rfl rfl)
    · exact hfollows

end Sys2Proof.Machine

/-! PROOFS of the register window (chapter 11): what command a CONTROL write is, one equation per command code, and what IDENT
reads. The statements O15 and O17 are put together from them. -/

namespace Sys2Proof

/-! ### The command of a CONTROL write (11 R186) -/

section
variable {value : Word}

theorem registerWrite_control_start (h : controlCode value = 1) :
    registerWrite 1 value = .start (value.extractLsb' 8 24) := by
  simp [registerWrite, h]

theorem registerWrite_control_stop (h : controlCode value = 2) :
    registerWrite 1 value = .stop (value.extractLsb' 8 24) := by
  simp [registerWrite, h]

theorem registerWrite_control_reset (h : controlCode value = 3) :
    registerWrite 1 value = .reset (value.extractLsb' 8 24) := by
  simp [registerWrite, h]

theorem knownControlCode_eq_false_iff :
    knownControlCode value = false ↔ controlCode value ≠ 1 ∧ controlCode value ≠ 2 ∧ controlCode value ≠ 3 := by
  simp [knownControlCode, and_assoc]

/-- The last arm of the match on the command code: the three codes before it are excluded. -/
theorem registerWrite_control_unknown (h : knownControlCode value = false) :
    registerWrite 1 value = .controlUnknownCommand value := by
  obtain ⟨notStart, notStop, notReset⟩ := knownControlCode_eq_false_iff.mp h
  simp [registerWrite]

end

end Sys2Proof

namespace Sys2Proof.Machine

theorem exec_controlUnknownCommand_open {value : Word} {s : State} (hcode : knownControlCode value = false)
    (hopen : s.ctl.windowOpen = true) : exec (.controlUnknownCommand value) s = .next s.outOfRange := by
  have hwrite : exec (.controlUnknownCommand value) s =
      .next (if knownControlCode value then s else s.outOfRange) :=
    s.write_open (fun _ => if knownControlCode value then s else s.outOfRange) hopen
  simpa [hcode] using hwrite

/-- Settles O15: one equation of `registerWrite` per command code; under any other code an open window takes the write as out
of range. -/
theorem controlWriteDecoding : Obligations.ControlWriteDecoding := by
  intro value code upper
  refine ⟨registerWrite_control_start, registerWrite_control_stop, registerWrite_control_reset,
    fun notStart notStop notReset => ?unknown⟩
  have hcode : knownControlCode value = false := knownControlCode_eq_false_iff.mpr ⟨notStart, notStop, notReset⟩
  exact ⟨registerWrite_control_unknown hcode, fun _ hopen => exec_controlUnknownCommand_open hcode hopen⟩

/-! ### Reads of the window (11 R184, R189) -/

theorem readRegister_resetLow {c : Controller} (h : c.resetHigh = false) (set : BitVec 5) (k : Fin 16) :
    readRegister c set k = 0 := by
  simp [readRegister, h]

theorem readRegister_ident {c : Controller} (h : c.resetHigh = true) (set : BitVec 5) :
    readRegister c set 0 = Config.ident := by
  simp [readRegister, h]

/-- Vendor code 3EH, part code 4160H and revision code 01H, in their bits (11 R189). -/
theorem ident_fields : Config.ident.extractLsb' 24 8 = 0x3E#8 ∧ Config.ident.extractLsb' 8 16 = 0x4160#16 ∧
    Config.ident.extractLsb' 0 8 = 0x01#8 := by
  decide

/-- Settles O17: with RESETn high IDENT reads the constant with its three codes, with RESETn low it reads 0 as every register
does. -/
theorem identRead : Obligations.IdentRead := by
  intro c set w
  refine ⟨fun hhigh => ?high, fun hlow => readRegister_resetLow hlow set 0⟩
  have hident : w = Config.ident := readRegister_ident hhigh set
  rw [hident]
  exact ⟨rfl, ident_fields⟩

end Sys2Proof.Machine

/-! PROOFS of the invariants of the part (O6 to O11), their first layer: what any operation on one line can do to what the
invariants look at, one lemma per operation of LineOps and per step of a unit. -/

namespace Sys2Proof.Machine

/-! ### Lists of members that stay in place -/

/-- The member keeps its request-table entry, and a composed completion stays composed. -/
def Member.Onward {β : Type} (x y : Member β) : Prop :=
  y.slot = x.slot ∧ ((∃ r, x.phase = .finishing r) → ∃ r, y.phase = .finishing r)

theorem Member.Onward.refl {β : Type} (x : Member β) : x.Onward x := ⟨rfl, id⟩

/-- Every member keeps its place in the list and goes onward. -/
def ListKept {β : Type} (xs ys : List (Member β)) : Prop := List.Forall₂ Member.Onward xs ys

theorem ListKept.refl {β : Type} (xs : List (Member β)) : ListKept xs xs := List.forall₂_same.mpr fun x _ => .refl x

theorem ListKept.of_eq {β : Type} {xs ys : List (Member β)} (h : ys = xs) : ListKept xs ys := h ▸ .refl xs

theorem ListKept.trans {β : Type} {xs ys zs : List (Member β)} (h : ListKept xs ys) (k : ListKept ys zs) :
    ListKept xs zs := by
  unfold ListKept at *
  induction h generalizing zs with
  | nil => exact k
  | cons hxy _ ih =>
    cases k with
    | cons hyz hrest => exact .cons ⟨hyz.1.trans hxy.1, hyz.2 ∘ hxy.2⟩ (ih hrest)

theorem ListKept.memberSlots {β : Type} {xs ys : List (Member β)} (h : ListKept xs ys) :
    memberSlots ys = memberSlots xs := by
  unfold ListKept at h
  induction h with
  | nil => rfl
  | cons hxy _ ih => simp_all [Machine.memberSlots, hxy.1]

theorem ListKept.eq_nil {β : Type} {xs ys : List (Member β)} (h : ListKept xs ys) (hx : xs = []) : ys = [] := by
  subst hx; cases h; rfl

theorem isSome_headResult_cons {β : Type} (m : Member β) (ms : List (Member β)) :
    (headResult (m :: ms)).isSome = true ↔ ∃ r, m.phase = .finishing r := by
  obtain ⟨slot, phase, body⟩ := m
  cases phase <;> simp [headResult]

theorem ListKept.headResult {β : Type} {xs ys : List (Member β)} (h : ListKept xs ys)
    (hx : (headResult xs).isSome = true) : (Machine.headResult ys).isSome = true := by
  unfold ListKept at h
  cases h with
  | nil => exact hx
  | cons hxy _ => exact (isSome_headResult_cons _ _).mpr (hxy.2 ((isSome_headResult_cons _ _).mp hx))

theorem finishHead_kept {β : Type} (r : Result) (xs : List (Member β)) : ListKept xs (finishHead r xs) := by
  cases xs with
  | nil => exact .refl _
  | cons m ms => exact .cons ⟨rfl, fun _ => ⟨r, rfl⟩⟩ (ListKept.refl ms)

theorem activateHead_kept {β : Type} (xs : List (Member β)) : ListKept xs (activateHead xs) := by
  cases xs with
  | nil => exact .refl _
  | cons m ms =>
    refine .cons ?_ (ListKept.refl ms)
    split
    · next hp => exact ⟨rfl, fun ⟨r, hr⟩ => by simp [hp] at hr⟩
    · exact .refl m

theorem finishListed_kept {β : Type} (st : Status) (xs : List (Member β)) : ListKept xs (finishListed st xs) := by
  refine List.forall₂_map_right_iff.mpr (List.forall₂_same.mpr fun m _ => ?_)
  split
  · exact ⟨rfl, fun _ => ⟨_, rfl⟩⟩
  · exact .refl m

@[simp] theorem finishHead_tail {β : Type} (r : Result) (xs : List (Member β)) : (finishHead r xs).tail = xs.tail := by
  cases xs <;> rfl

/-- A control list whose members stay, with nothing changed behind its head (02 R31). -/
def ControlKept (xs ys : List (Member LineCommand)) : Prop := ListKept xs ys ∧ ys.tail = xs.tail

theorem ControlKept.refl (xs : List (Member LineCommand)) : ControlKept xs xs := ⟨.refl xs, rfl⟩

theorem ControlKept.trans {xs ys zs : List (Member LineCommand)} (h : ControlKept xs ys) (k : ControlKept ys zs) :
    ControlKept xs zs := ⟨h.1.trans k.1, k.2.trans h.2⟩

/-! ### A step of one line -/

/-- The line holds no data record. -/
def Line.Unloaded (l : Line) : Prop := l.tx.list = [] ∧ l.filler.list = [] ∧ l.poll.list = []

/-- A DISABLED line holds no data record (02 R36). -/
def Line.RestsDisabled (l : Line) : Prop := l.state = .disabled → l.Unloaded

/-- From RELEASE until the attempt's outcome is decided the reply window is open (06 R112, R119). -/
def Line.WindowOk (l : Line) : Prop :=
  l.poll.attempt = .release ∨ l.poll.attempt = .await ∨ l.poll.attempt = .reply → l.poll.window = true

theorem Line.WindowOk.of_attempt {l : Line}
    (h : l.poll.attempt ≠ .release ∧ l.poll.attempt ≠ .await ∧ l.poll.attempt ≠ .reply) : l.WindowOk := by
  rintro (k | k | k)
  · exact absurd k h.1
  · exact absurd k h.2.1
  · exact absurd k h.2.2

/-- The bounds of a line's FIFO, counts and assemblies, of the numbers they bound. -/
structure NumbersBounded (staged lost stray errors dropped bufferAssembly replyAssembly : Nat) : Prop where
  staged : staged ≤ 8
  lost : lost ≤ 65535
  stray : stray ≤ 255
  errors : errors ≤ 255
  dropped : dropped ≤ 255
  bufferAssembly : bufferAssembly ≤ 16
  replyAssembly : replyAssembly ≤ 16

/-- A line keeps its bounds, said of its numbers alone. -/
def Line.Bounded (l : Line) : Prop :=
  NumbersBounded l.rx.fifo.length l.rx.lost l.rx.stray l.filler.errors l.filler.dropped l.filler.assembly.length
    l.poll.assembly.length

theorem Line.withinBounds_iff (l : Line) : l.WithinBounds ↔ l.Bounded :=
  ⟨fun h => ⟨h.staged, h.lost, h.stray, h.errors, h.dropped, h.bufferAssembly, h.replyAssembly⟩,
    fun h => ⟨h.staged, h.lost, h.stray, h.errors, h.dropped, h.bufferAssembly, h.replyAssembly⟩⟩

/-- What an operation on line `l` that leaves `k` can do to the things the invariants look at: every member of its lists
stays in place, no composed completion is lost, the event-entry-queued flag stays, and the line's own invariants are
kept. -/
structure Line.Kept (l k : Line) : Prop where
  control : ControlKept l.control k.control
  filler : ListKept l.filler.list k.filler.list
  tx : ListKept l.tx.list k.tx.list
  poll : ListKept l.poll.list k.poll.list
  queued : k.event.queued = l.event.queued
  disabled : l.RestsDisabled → k.RestsDisabled
  bounds : l.Bounded → k.Bounded
  window : l.WindowOk → k.WindowOk

theorem Line.Kept.refl (l : Line) : l.Kept l := ⟨.refl _, .refl _, .refl _, .refl _, rfl, id, id, id⟩

/-- The same of an operation that keeps the line record too: any but CONFIGURE_LINE. An operation that changes none of these
things is `{ Line.Step.refl _ with }`. -/
structure Line.Step (l k : Line) : Prop extends l.Kept k where
  record : k.record = l.record

theorem Line.Step.refl (l : Line) : l.Step l := { Line.Kept.refl l with record := rfl }

theorem Line.Kept.trans {l k m : Line} (h : l.Kept k) (j : k.Kept m) : l.Kept m where
  control := h.control.trans j.control
  filler := h.filler.trans j.filler
  tx := h.tx.trans j.tx
  poll := h.poll.trans j.poll
  queued := j.queued.trans h.queued
  disabled := j.disabled ∘ h.disabled
  bounds := j.bounds ∘ h.bounds
  window := j.window ∘ h.window

theorem Line.Step.trans {l k m : Line} (h : l.Step k) (j : k.Step m) : l.Step m :=
  { h.toKept.trans j.toKept with record := j.record.trans h.record }

/-- Read backwards: the last operation first. -/
theorem Line.Step.after {l k m : Line} (j : k.Step m) (h : l.Step k) : l.Step m := h.trans j

theorem Line.Step.isPoll {l k : Line} (h : l.Step k) : k.isPoll = l.isPoll := by
  simp [Line.isPoll, h.record]

/-- A DISABLED line whose lists only keep their members still rests. -/
theorem Line.Unloaded.of_kept {l k : Line} (h : l.Unloaded) (hf : ListKept l.filler.list k.filler.list)
    (ht : ListKept l.tx.list k.tx.list) (hp : ListKept l.poll.list k.poll.list) : k.Unloaded :=
  ⟨ht.eq_nil h.1, hf.eq_nil h.2.1, hp.eq_nil h.2.2⟩

/-- An operation on the lists of a line that keeps its state keeps a DISABLED line at rest. -/
theorem Line.RestsDisabled.of_kept {l k : Line} (hs : k.state = l.state) (hf : ListKept l.filler.list k.filler.list)
    (ht : ListKept l.tx.list k.tx.list) (hp : ListKept l.poll.list k.poll.list) (h : l.RestsDisabled) :
    k.RestsDisabled :=
  fun hk => (h (hs ▸ hk)).of_kept hf ht hp

theorem saturate_le (cap n : Nat) : saturate cap n ≤ cap := by
  unfold saturate; split <;> omega

/-! ### Line control unit and receiver -/

theorem Line.finishCommand_step (l : Line) (st : Status) (count : Nat) (detail : Word) :
    l.Step (l.finishCommand st count detail) :=
  { Line.Step.refl l with
    control := ⟨finishHead_kept _ _, finishHead_tail _ _⟩ }

theorem Line.progress_step (l : Line) (p : CommandProgress) : l.Step { l with progress := p } := { Line.Step.refl l with }

theorem Line.recordEntered_step (l : Line) (slot : Slot) : l.Step (l.recordEntered slot) := by
  unfold Line.recordEntered
  split
  · split
    · exact l.finishCommand_step _ _ _
    · exact l.progress_step _
  · exact .refl l

theorem raise_step (c : Condition) (l : Line) : l.Step (raise c l) := { Line.Step.refl l with }

theorem Line.rxOff_step (l : Line) : l.Step l.rxOff := { Line.Step.refl l with }

theorem Line.rxHunt_step (l : Line) : l.Step l.rxHunt := by
  unfold Line.rxHunt
  split
  · exact { Line.Step.refl _ with }
  · exact .refl l

theorem Line.addLost_step (l : Line) (n : Nat) : l.Step (l.addLost n) :=
  { Line.Step.refl l with
    bounds := fun h => { h with lost := saturate_le _ _ } }

theorem Line.addStray_step (l : Line) : l.Step l.addStray :=
  { Line.Step.refl l with
    bounds := fun h => { h with stray := saturate_le _ _ } }

theorem Line.rtsAfterJoin_step (l : Line) : l.Step l.rtsAfterJoin := by
  unfold Line.rtsAfterJoin
  split
  · exact { Line.Step.refl _ with }
  · exact .refl l

theorem Line.rtsAfterTake_step (l : Line) : l.Step l.rtsAfterTake := by
  unfold Line.rtsAfterTake
  split
  · exact { Line.Step.refl _ with }
  · exact .refl l

/-- Entries may leave the staging FIFO. -/
theorem Line.shorterFifo_step (l : Line) {es : List Staged} (h : es.length ≤ l.rx.fifo.length) :
    l.Step { l with rx := { l.rx with fifo := es } } :=
  { Line.Step.refl l with
    bounds := fun k => { k with staged := Nat.le_trans h k.staged } }

theorem Line.dropStagedHead_step (l : Line) : l.Step l.dropStagedHead :=
  (l.shorterFifo_step (by simp)).trans (Line.rtsAfterTake_step _)

theorem markNewest_length (m : CloseMark) (es : List Staged) : (markNewest m es).length = es.length := by
  induction es with
  | nil => rfl
  | cons e es ih => cases es <;> simp_all [markNewest]

theorem Line.placeMark_step (l : Line) (m : CloseMark) : l.Step (l.placeMark m) :=
  { Line.Step.refl l with
    bounds := fun h => { h with staged := (markNewest_length m _).trans_le h.staged } }

/-! ### Buffer filler -/

theorem Line.requestBufferWrite_step (l : Line) : l.Step l.requestBufferWrite := by
  rw [Line.requestBufferWrite_spec]
  split
  · exact { Line.Step.refl _ with bounds := fun h => { h with bufferAssembly := Nat.zero_le _ } }
  · exact .refl l

theorem Line.offerBuffer_step (l : Line) (st : Status) : l.Step (l.offerBuffer st) :=
  { Line.Step.refl l with
    filler := finishHead_kept _ _
    disabled := .of_kept rfl (finishHead_kept _ _) (.refl _) (.refl _) }

theorem Line.composeBuffer_step (l : Line) : l.Step l.composeBuffer := by
  unfold Line.composeBuffer
  dsimp only
  split
  · exact l.offerBuffer_step _
  · exact .refl l

theorem Line.closeBuffer_step (l : Line) (reason : CloseReason) : l.Step (l.closeBuffer reason) := by
  refine Line.Step.trans ?_ ((Line.requestBufferWrite_step _).trans (Line.composeBuffer_step _))
  exact { Line.Step.refl _ with }

theorem Line.endBuffers_step (l : Line) (st : Status) : l.Step (l.endBuffers st) := by
  have listed : l.Step { l with filler := { l.filler with list := finishListed st l.filler.list } } :=
    { Line.Step.refl _ with
      filler := finishListed_kept _ _
      disabled := .of_kept rfl (finishListed_kept _ _) (.refl _) (.refl _) }
  unfold Line.endBuffers
  dsimp only
  split
  · refine listed.trans (Line.Step.trans ?_ ((Line.requestBufferWrite_step _).trans (Line.composeBuffer_step _)))
    exact { Line.Step.refl _ with }
  · exact listed

theorem Line.takeUpFlush_step (l : Line) : l.Step l.takeUpFlush := by
  unfold Line.takeUpFlush
  split
  · split
    · refine Line.Step.trans ?_ (Line.closeBuffer_step _ _)
      exact { Line.Step.refl _ with }
    · refine Line.Step.trans ?_ (Line.placeMark_step _ _)
      exact { Line.Step.refl _ with }
  · exact l.finishCommand_step _ _ _
  · exact l.progress_step _

theorem Line.flushedEntered_step (l : Line) (slot : Slot) (r : Result) : l.Step (l.flushedEntered slot r) := by
  unfold Line.flushedEntered
  split
  · split
    · refine Line.Step.trans ?_ (Line.finishCommand_step _ _ _ _)
      exact { Line.Step.refl _ with }
    · exact .refl l
  · exact .refl l

/-! ### Transmitter -/

@[simp] theorem Transmitter.requestRead_list (t : Transmitter) : t.requestRead.list = t.list := by
  unfold Transmitter.requestRead
  split
  · rfl
  · dsimp only; split <;> rfl

/-- Whatever happens to the transmitter with its list staying. -/
theorem Line.txKept_step (l : Line) {t : Transmitter} (h : t.list = l.tx.list) : l.Step { l with tx := t } :=
  { Line.Step.refl l with
    tx := .of_eq h
    disabled := .of_kept rfl (.refl _) (.of_eq h) (.refl _) }

theorem Line.beginJob_step (l : Line) (j : TxJob) : l.Step (l.beginJob j) := by
  unfold Line.beginJob
  dsimp only
  split <;> exact l.txKept_step (Transmitter.requestRead_list _)

theorem Line.startFrame_step (l : Line) (value : Byte) (mark : Bool) : l.Step (l.startFrame value mark) :=
  l.txKept_step rfl

theorem Line.sendStaged_step (l : Line) (j : TxJob) : l.Step (l.sendStaged j) := by
  unfold Line.sendStaged
  split
  · exact .refl l
  · exact (l.startFrame_step _ _).trans (Line.txKept_step _ (Transmitter.requestRead_list _))

theorem Line.composeSend_step (l : Line) : l.Step l.composeSend := by
  unfold Line.composeSend
  split
  · split
    · exact { Line.Step.refl _ with tx := finishHead_kept _ _, disabled := .of_kept rfl (.refl _) (finishHead_kept _ _) (.refl _) }
    · exact .refl l
  · exact .refl l

/-! ### Poll engine -/

theorem Line.requestReplyWrite_step (l : Line) : l.Step l.requestReplyWrite := by
  rw [Line.requestReplyWrite_spec]
  split
  · exact { Line.Step.refl _ with bounds := fun h => { h with replyAssembly := Nat.zero_le _ } }
  · exact .refl l

/-- The window may close where no attempt is between RELEASE and its outcome. -/
theorem Line.closeWindow_step (l : Line)
    (h : l.poll.attempt ≠ .release ∧ l.poll.attempt ≠ .await ∧ l.poll.attempt ≠ .reply) : l.Step l.closeWindow :=
  { Line.Step.refl l with
    bounds := fun k => { k with staged := Nat.zero_le _ }
    window := fun _ => .of_attempt h }

theorem Line.closeWindowIfWritten_step (l : Line) : l.Step l.closeWindowIfWritten := by
  unfold Line.closeWindowIfWritten
  split
  · next h => exact l.closeWindow_step (by simp [h.1])
  · exact .refl l

/-- The poll engine enters SETTLE. -/
theorem Line.settle_step (l : Line) {p : PollEngine} (hl : p.list = l.poll.list) (ha : p.attempt = .settle)
    (hb : p.assembly.length ≤ l.poll.assembly.length) : l.Step { l with poll := p } :=
  { Line.Step.refl l with
    poll := .of_eq hl
    disabled := .of_kept rfl (.refl _) (.refl _) (.of_eq hl)
    bounds := fun h => { h with replyAssembly := Nat.le_trans hb h.replyAssembly }
    window := fun _ => .of_attempt (by simp [ha]) }

/-- The poll engine enters SETTLE and its window shuts, the FIFO discarded. -/
theorem Line.shutWindow_step (l : Line) {p : PollEngine} (hl : p.list = l.poll.list) (ha : p.attempt = .settle)
    (hb : p.assembly.length ≤ l.poll.assembly.length) :
    l.Step { l with rx := { l.rx with fifo := [] }, poll := p } := by
  refine Line.Step.after ?_ (l.shorterFifo_step (es := []) (Nat.zero_le _))
  exact Line.settle_step _ hl ha hb

theorem Line.decideOutcome_step (l : Line) (o : PollOutcome) : l.Step (l.decideOutcome o) := by
  unfold Line.decideOutcome
  dsimp only
  have settles : l.Step { l with poll := { l.poll.stopTimers with attempt := .settle, outcome := o } } :=
    l.settle_step rfl rfl (Nat.le_refl _)
  refine settles.trans (Line.Step.trans ?_ ((Line.requestReplyWrite_step _).trans (Line.closeWindowIfWritten_step _)))
  split
  · exact .refl _
  · exact Line.closeWindow_step _ (by simp)

theorem Line.composePoll_step (l : Line) : l.Step l.composePoll := by
  unfold Line.composePoll
  split
  · split
    · exact { Line.Step.refl _ with poll := finishHead_kept _ _, disabled := .of_kept rfl (.refl _) (.refl _) (finishHead_kept _ _) }
    · exact .refl l
  · exact .refl l

theorem Line.decideEnd_step (l : Line) (st : Status) : l.Step { l with poll := l.poll.decideEnd st } := { Line.Step.refl l with }

theorem Line.releaseDriver_step (l : Line) : l.Step l.releaseDriver := by
  refine Line.Step.trans ?_ (Line.rxHunt_step _)
  exact { Line.Step.refl _ with }

theorem Line.pollWorkEnded_step (l : Line) (st : Status) : l.Step (l.pollWorkEnded st) := by
  unfold Line.pollWorkEnded
  dsimp only
  refine (Line.composePoll_step _).after (l.releaseDriver_step.trans ?_)
  exact Line.settle_step _ rfl rfl (Nat.le_refl _)

theorem Line.stopCharacters_step (l : Line) (st : Status) (ts : TxState) : l.Step (l.stopCharacters st ts) := by
  unfold Line.stopCharacters
  dsimp only
  split
  · exact (Line.pollWorkEnded_step _ _).after (l.txKept_step rfl)
  · exact (Line.composeSend_step _).after (l.txKept_step rfl)

theorem Line.requestSent_step (l : Line) : l.Step l.requestSent := by
  have released := (l.txKept_step (t := { l.tx.jobOver with state := .idle, txd := .mark }) rfl).trans
    (Line.releaseDriver_step _)
  refine released.trans ?_
  exact { Line.Step.refl _ with window := fun _ _ => rfl }

theorem Line.startCharacter_step (l : Line) : l.Step l.startCharacter := by
  unfold Line.startCharacter
  split
  · exact .refl l
  · split
    · exact l.startFrame_step _ _
    · split_ifs
      · exact l.stopCharacters_step _ _
      · exact l.txKept_step rfl
      · exact l.txKept_step rfl
      · exact l.txKept_step rfl
      · exact l.sendStaged_step _

theorem Line.readCts_step (l : Line) (cts : Bool) : l.Step (l.readCts cts) := l.txKept_step rfl

theorem Line.abortCharacters_step (l : Line) (st : Status) : l.Step (l.abortCharacters st) := by
  unfold Line.abortCharacters
  split
  · exact l.txKept_step rfl
  · exact l.stopCharacters_step _ _

theorem Line.endSends_step (l : Line) (st : Status) : l.Step (l.endSends st) := by
  have listed : l.Step { l with tx := { l.tx with list := finishListed st l.tx.list } } :=
    { Line.Step.refl _ with
      tx := finishListed_kept _ _
      disabled := .of_kept rfl (.refl _) (finishListed_kept _ _) (.refl _) }
  unfold Line.endSends
  dsimp only
  split
  · exact listed.trans (Line.abortCharacters_step _ _)
  · exact listed

theorem Line.cutAttempt_step (l : Line) (st : Status) : l.Step (l.cutAttempt st) := by
  have ended (m : Line) :
      m.Step { m with poll := { m.poll.decideEnd st with attempt := .settle, guardSpan := none } } :=
    m.settle_step rfl rfl (Nat.le_refl _)
  unfold Line.cutAttempt
  dsimp only
  split
  · exact .refl l
  · exact (ended l).trans (Line.composePoll_step _)
  · exact (l.decideEnd_step st).trans (Line.abortCharacters_step _ _)
  iterate 3
    · refine (Line.composePoll_step _).after ((Line.requestReplyWrite_step _).after ?_)
      exact l.shutWindow_step rfl rfl (Nat.le_refl _)
  · exact (Line.composePoll_step _).after (l.decideEnd_step st)

theorem Line.endPolls_step (l : Line) (st : Status) : l.Step (l.endPolls st) := by
  have listed : l.Step { l with poll := { l.poll with list := finishListed st l.poll.list } } :=
    { Line.Step.refl _ with
      poll := finishListed_kept _ _
      disabled := .of_kept rfl (.refl _) (.refl _) (finishListed_kept _ _) }
  unfold Line.endPolls
  dsimp only
  split
  · exact listed.trans (Line.cutAttempt_step _ _)
  · exact listed

theorem Line.stop_step (l : Line) : l.Step l.stop := by
  unfold Line.stop
  split_ifs
  · exact .refl l
  · exact { Line.Step.refl _ with
            poll := finishListed_kept _ _
            disabled := .of_kept rfl (.refl _) (.refl _) (finishListed_kept _ _) }
  · exact (Line.endBuffers_step _ _).after
      { Line.Step.refl _ with
        tx := finishListed_kept _ _
        disabled := .of_kept rfl (.refl _) (finishListed_kept _ _) (.refl _) }

end Sys2Proof.Machine

/-! PROOFS of the invariants of the part, their second layer: the steps of each unit of a line. -/

namespace Sys2Proof.Machine

/-- Whatever line the step `f` answers is one that a `Line.Step` leads to. -/
def StepsBy (f : Line → Option Line) : Prop := ∀ l k, f l = some k → l.Step k

theorem Line.Step.some {l k m : Line} (h : l.Step k) (e : Option.some k = Option.some m) : l.Step m := by
  cases e; exact h

/-! ### Buffer filler (04) -/

theorem assemblyHasRoom_length {a : List Byte} {base : Addr} {offset : Nat} (h : assemblyHasRoom a base offset = true) :
    a.length < 16 :=
  ((assemblyHasRoom_iff a base offset).mp h).1

/-- An entry is assigned while the assembly has room (04 R68, R75). -/
theorem Line.afterTake_step (l : Line) (slot : Slot) (h : Handling) (e : Staged) (hr : l.filler.hasRoom = true) :
    l.Step { l with filler := l.filler.afterTake slot h e } :=
  { Line.Step.refl l with
    bounds := fun b => { b with
      errors := saturate_le _ _
      dropped := saturate_le _ _
      bufferAssembly := by
        have := assemblyHasRoom_length hr
        simp only [Filler.afterTake]
        split
        · simp; omega
        · omega } }

theorem Line.fillerTake_steps : StepsBy Line.fillerTake := by
  intro l k hk
  unfold Line.fillerTake at hk
  split at hk
  · split at hk
    · next hr =>
      refine Line.Step.some ?_ hk
      have taken (slot : Slot) (h : Handling) (e : Staged) :
          l.Step (if h.taken then Line.dropStagedHead { l with filler := l.filler.afterTake slot h e } else l) := by
        split
        · exact (Line.dropStagedHead_step _).after (l.afterTake_step slot h e hr)
        · exact .refl l
      split
      · exact (Line.requestBufferWrite_step _).after (taken _ _ _)
      · exact (Line.closeBuffer_step _ _).after (taken _ _ _)
    · exact absurd hk nofun
  · exact absurd hk nofun

theorem Line.bufferWritten_step (l : Line) (size : Nat) : l.Step (l.bufferWritten size) := by
  refine (Line.composeBuffer_step _).after ((Line.requestBufferWrite_step _).after ?_)
  exact { Line.Step.refl _ with }

theorem Line.bufferWriteFailed_step (l : Line) (size : Nat) : l.Step (l.bufferWriteFailed size) := by
  have emptied : l.Step { l with filler := { l.filler with outstanding := none, assembly := [] } } :=
    { Line.Step.refl _ with bounds := fun h => { h with bufferAssembly := Nat.zero_le _ } }
  unfold Line.bufferWriteFailed
  dsimp only
  split
  · exact (Line.offerBuffer_step _ _).after ((Line.addLost_step _ _).after emptied)
  · exact (Line.addLost_step _ _).after emptied

/-! ### Line commands (02) -/

theorem Line.badState_step (l : Line) : l.Step l.badState := l.finishCommand_step _ _ _

/-- CONFIGURE_LINE keeps everything but the record of a DISABLED line (02 R33). -/
theorem Line.configure_kept {l k : Line} (hk : l.configure = some k) :
    l.Kept k ∧ (k.isPoll = l.isPoll ∨ l.state = .disabled) := by
  unfold Line.configure at hk
  split at hk
  · cases hk
    split
    · next r _ hs =>
      have configured : l.Kept { l with record := r } := { Line.Step.refl l with }
      exact ⟨configured.trans (Line.finishCommand_step _ _ _ _).toKept, .inr hs⟩
    · exact ⟨l.badState_step.toKept, .inl l.badState_step.isPoll⟩
  · exact absurd hk nofun

theorem Line.enabled_step (l : Line) : l.Step l.enabled := by
  unfold Line.enabled
  dsimp only
  refine (Line.rxHunt_step _).after ?_
  exact { Line.Step.refl _ with
          disabled := fun _ h => absurd h nofun
          bounds := fun h => { h with staged := Nat.zero_le _ }
          window := fun _ => .of_attempt (by simp) }

theorem Line.enable_steps : StepsBy Line.enable := by
  intro l k hk
  unfold Line.enable at hk
  split at hk
  · refine Line.Step.some ?_ hk
    split
    · exact (Line.finishCommand_step _ _ _ _).after l.enabled_step
    · exact l.badState_step
  · exact absurd hk nofun

theorem Line.beginDisabling_step (l : Line) : l.Step l.beginDisabling := by
  have disabling (p : CommandProgress) : l.Step (Line.rxOff { l with
      state := .disabling, rts := false, progress := p, poll := { l.poll with quiet := false } }) :=
    { Line.Step.refl _ with disabled := fun _ h => absurd h nofun }
  unfold Line.beginDisabling
  dsimp only
  split
  · exact (Line.endPolls_step _ _).after (disabling _)
  · exact (Line.endBuffers_step _ _).after ((Line.endSends_step _ _).after (disabling _))

theorem Line.disable_steps : StepsBy Line.disable := by
  intro l k hk
  unfold Line.disable at hk
  split at hk
  · split at hk
    · exact l.beginDisabling_step.some hk
    · exact (l.finishCommand_step _ _ _).some hk
    · exact absurd hk nofun
  · exact absurd hk nofun

theorem Line.disabledStep_steps : StepsBy Line.disabledStep := by
  intro l k hk
  unfold Line.disabledStep at hk
  split at hk
  · split at hk
    · next hempty =>
      have hunloaded : l.Unloaded := by simpa [Line.Unloaded] using hempty
      refine Line.Step.some ?_ hk
      refine (Line.finishCommand_step _ _ _ _).after ?_
      exact { Line.Step.refl _ with disabled := fun _ _ => hunloaded, bounds := fun h => { h with staged := Nat.zero_le _ } }
    · exact absurd hk nofun
  · exact absurd hk nofun

theorem Line.reportWritten_step (l : Line) (e : WriteEnd) : l.Step (l.reportWritten e) := by
  unfold Line.reportWritten
  split
  · exact l.finishCommand_step _ _ _
  · exact l.finishCommand_step _ _ _
  · exact .refl l

theorem Line.abortUnits_step (l : Line) (c : AbortClass) : l.Step (l.abortUnits c) := by
  unfold Line.abortUnits
  split
  · exact l.endPolls_step _
  · cases c
    case tx => exact l.endSends_step _
    case rx => exact l.endBuffers_step _
    case all => exact (Line.endBuffers_step _ _).after (l.endSends_step _)

theorem Line.abort_steps : StepsBy Line.abort := by
  intro l k hk
  unfold Line.abort at hk
  split at hk
  · split at hk
    · exact (l.finishCommand_step _ _ _).some hk
    · dsimp only at hk
      split_ifs at hk
      · exact l.badState_step.some hk
      · exact (l.finishCommand_step _ _ _).some hk
      · exact ((Line.abortUnits_step _ _).after (l.progress_step _)).some hk
    · exact absurd hk nofun
  · exact absurd hk nofun

theorem Line.endHeld_step (l : Line) : l.Step l.endHeld := by
  unfold Line.endHeld
  dsimp only
  split_ifs
  · exact (Line.rtsAfterTake_step _).after { Line.Step.refl _ with }
  · exact { Line.Step.refl _ with }
  · exact .refl l

theorem Line.resume_steps : StepsBy Line.resume := by
  intro l k hk
  unfold Line.resume at hk
  split at hk
  · refine Line.Step.some ?_ hk
    refine (Line.finishCommand_step _ _ _ _).after ((Line.endHeld_step _).after ?_)
    exact { Line.Step.refl _ with bounds := fun h => { h with lost := Nat.zero_le _ } }
  · exact absurd hk nofun

theorem Line.flush_steps : StepsBy Line.flush := by
  intro l k hk
  unfold Line.flush at hk
  split at hk
  · split at hk
    · exact (l.finishCommand_step _ _ _).some hk
    · refine Line.Step.some ?_ hk
      split
      · exact l.badState_step
      · exact l.takeUpFlush_step
    · exact absurd hk nofun
  · exact absurd hk nofun

/-! ### Poll engine (06) -/

/-- The poll engine changes, its members staying in place, and is in an attempt state outside the reply window. -/
theorem Line.pollMoves_step (l : Line) {p : PollEngine} (hl : ListKept l.poll.list p.list)
    (hb : p.assembly.length ≤ l.poll.assembly.length)
    (ha : p.attempt ≠ .release ∧ p.attempt ≠ .await ∧ p.attempt ≠ .reply) : l.Step { l with poll := p } :=
  { Line.Step.refl l with
    poll := hl
    disabled := .of_kept rfl (.refl _) (.refl _) hl
    bounds := fun h => { h with replyAssembly := Nat.le_trans hb h.replyAssembly }
    window := fun _ => .of_attempt ha }

theorem Line.takePoll_steps : StepsBy Line.takePoll := by
  intro l k hk
  unfold Line.takePoll at hk
  split at hk
  · split at hk
    · refine Line.Step.some ?_ hk
      exact l.pollMoves_step (activateHead_kept _) (Nat.le_refl _) (by simp)
    · exact absurd hk nofun
  · exact absurd hk nofun

theorem Line.guardEnd_steps : StepsBy Line.guardEnd := by
  intro l k hk
  unfold Line.guardEnd at hk
  split at hk
  · refine Line.Step.some ?_ hk
    have begun (w : PollWork) : l.Step (Line.beginJob (Line.rxOff
        { l with de := true, poll := { l.poll with attempt := .request, guardSpan := none } }) w.job) := by
      refine (Line.beginJob_step _ _).after ((Line.rxOff_step _).after ?_)
      exact { Line.Step.refl _ with window := fun _ => .of_attempt (by simp) }
    dsimp only
    split
    · exact (Line.startCharacter_step _).after (begun _)
    · exact begun _
  · exact absurd hk nofun

theorem Line.awaitEntry_steps : StepsBy Line.awaitEntry := by
  intro l k hk
  unfold Line.awaitEntry at hk
  split at hk
  · next ha =>
    refine Line.Step.some ?_ hk
    exact { Line.Step.refl _ with window := fun h _ => h (.inl ha) }
  · exact absurd hk nofun

theorem Line.judgeAwait_step (l : Line) (e : Staged) (ha : l.poll.attempt = .await) : l.Step (l.judgeAwait e) := by
  have starts : l.Step { l with poll := { l.poll with
      attempt := .reply, replyTimer := none
      gapTimer := some (l.record.characterTimes l.poll.headPoll.replyGap) } } :=
    { Line.Step.refl _ with window := fun h _ => h (.inr (.inl ha)) }
  unfold Line.judgeAwait
  dsimp only
  split_ifs
  · exact l.addStray_step
  · exact (Line.decideOutcome_step _ _).after starts
  · exact starts
  · exact l.decideOutcome_step _

/-- A reply byte is stored while the assembly has room (06 R116, R118). -/
theorem Line.storeReply_step (l : Line) (e : Staged) (hr : l.poll.assembly.length < 16) : l.Step (l.storeReply e) := by
  have stored : l.Step { l with poll := { l.poll with
      assembly := l.poll.assembly ++ [e.value], fill := l.poll.fill + 1 } } :=
    { Line.Step.refl _ with bounds := fun h => { h with replyAssembly := by simp; omega } }
  unfold Line.storeReply
  dsimp only
  split
  · exact (Line.decideOutcome_step _ _).after stored
  · exact stored

theorem Line.judgeReply_step (l : Line) (e : Staged) (hr : l.poll.assembly.length < 16) : l.Step (l.judgeReply e) := by
  unfold Line.judgeReply
  dsimp only
  split_ifs
  · exact l.decideOutcome_step _
  · exact l.decideOutcome_step _
  · exact l.decideOutcome_step _
  · exact l.storeReply_step e hr

theorem Line.decideGap_step (l : Line) : l.Step l.decideGap := by
  unfold Line.decideGap
  split
  · exact l.decideOutcome_step _
  · exact .refl l

theorem Line.pollTakeEntry_steps : StepsBy Line.pollTakeEntry := by
  intro l k hk
  unfold Line.pollTakeEntry at hk
  split at hk
  · next e rest hfifo =>
    have shorter : rest.length ≤ l.rx.fifo.length := by simp [hfifo]
    dsimp only at hk
    split at hk
    · next ha =>
      refine Line.Step.some ?_ hk
      refine Line.Step.after ?_ (l.shorterFifo_step (es := rest) shorter)
      exact Line.judgeAwait_step _ e ha
    · split at hk
      · next hr =>
        refine Line.Step.some ?_ hk
        refine (Line.requestReplyWrite_step _).after ((Line.decideGap_step _).after
          ((Line.judgeReply_step _ e ?_).after ?_))
        · exact assemblyHasRoom_length hr
        · exact { Line.Step.refl _ with bounds := fun h => { h with staged := Nat.le_trans shorter h.staged } }
      · exact absurd hk nofun
    · exact absurd hk nofun
  · exact absurd hk nofun

theorem Line.replyTimeout_steps : StepsBy Line.replyTimeout := by
  intro l k hk
  unfold Line.replyTimeout at hk
  split at hk
  · exact (l.decideOutcome_step _).some hk
  · exact absurd hk nofun

theorem Line.replyGapFire_steps : StepsBy Line.replyGapFire := by
  intro l k hk
  unfold Line.replyGapFire at hk
  split at hk
  · refine Line.Step.some ?_ hk
    exact (Line.decideGap_step _).after { Line.Step.refl _ with }
  · exact absurd hk nofun

theorem Line.replyWritten_step (l : Line) (size : Nat) : l.Step (l.replyWritten size) := by
  refine (Line.composePoll_step _).after ((Line.closeWindowIfWritten_step _).after
    ((Line.requestReplyWrite_step _).after ?_))
  exact { Line.Step.refl _ with }

theorem Line.replyWriteFailed_step (l : Line) : l.Step l.replyWriteFailed := by
  unfold Line.replyWriteFailed
  dsimp only
  refine (Line.composePoll_step _).after ?_
  exact l.shutWindow_step rfl rfl (Nat.zero_le _)

theorem Line.retry_step (l : Line) : l.Step l.retry :=
  { Line.Step.refl l with
    window := fun _ => .of_attempt (by simp [Line.retry]) }

theorem Line.attemptEnd_steps : StepsBy Line.attemptEnd := by
  intro l k hk
  unfold Line.attemptEnd at hk
  dsimp only at hk
  split at hk
  · refine Line.Step.some ?_ hk
    have recorded : l.Step { l with poll := { l.poll with
        lastOutcome := l.poll.outcome, seen := l.poll.seen ||| l.poll.outcome.asSeen } } := { Line.Step.refl l with }
    split_ifs
    · exact (Line.composePoll_step _).after ((Line.decideEnd_step _ _).after recorded)
    · exact (Line.composePoll_step _).after ((Line.decideEnd_step _ _).after recorded)
    · exact (Line.retry_step _).after recorded
  · exact absurd hk nofun

/-! ### Receiver (03) -/

theorem Line.fallingEdge_steps : StepsBy Line.fallingEdge := by
  intro l k hk
  unfold Line.fallingEdge at hk
  split at hk
  · refine Line.Step.some ?_ hk
    exact { Line.Step.refl l with }
  · exact absurd hk nofun

theorem Line.startCheck_steps (level : Bool) : StepsBy (Line.startCheck level) := by
  intro l k hk
  unfold Line.startCheck at hk
  split at hk
  · refine Line.Step.some ?_ hk
    split <;> exact { Line.Step.refl _ with }
  · exact absurd hk nofun

theorem Line.dataBit_steps (level : Bool) : StepsBy (Line.dataBit level) := by
  intro l k hk
  unfold Line.dataBit at hk
  split at hk
  · refine Line.Step.some ?_ hk
    exact { Line.Step.refl _ with }
  · exact absurd hk nofun

theorem Line.raiseCarried_step (l : Line) (e : Staged) : l.Step (l.raiseCarried e) := by
  have first : l.Step (if e.framing || e.parity then raise .lineError l else l) := by
    split
    · exact raise_step _ l
    · exact .refl l
  unfold Line.raiseCarried
  dsimp only
  split
  · exact (raise_step _ _).after first
  · exact first

/-- A character joins a FIFO that is not full (03 R52, R53). -/
theorem Line.stage_step (l : Line) (e : Staged) (h : l.rx.fifo.length < 8) : l.Step (l.stage e) := by
  have joined : l.Step { l with rx := { l.rx with
      fifo := l.rx.fifo ++ [e], armed := l.rx.armed || (!l.isPoll && l.record.idleGap != 0) } } :=
    { Line.Step.refl _ with bounds := fun b => { b with staged := by simp; omega } }
  unfold Line.stage
  dsimp only
  refine (Line.rtsAfterJoin_step _).after ?_
  split
  · exact (raise_step _ _).after joined
  · exact joined

theorem Line.overrun_step (l : Line) : l.Step l.overrun := by
  have held : l.Step (raise .overrun (Line.addLost { l with rx := { l.rx with held := true } } 1)) :=
    (raise_step _ _).after ((Line.addLost_step _ _).after { Line.Step.refl _ with })
  unfold Line.overrun
  dsimp only
  split
  · exact held.trans { Line.Step.refl _ with }
  · exact held

theorem Line.place_step (l : Line) (e : Staged) : l.Step (l.place e) := by
  unfold Line.place
  split_ifs with _ _ hfull
  · exact l.addStray_step
  · exact l.addLost_step 1
  · exact l.overrun_step
  · exact l.stage_step e (Nat.lt_of_not_le hfull)

theorem Line.restartTimers_step (l : Line) : l.Step l.restartTimers := by
  unfold Line.restartTimers
  dsimp only
  split
  · exact { Line.Step.refl _ with }
  · split
    · exact .refl l
    · exact { Line.Step.refl _ with }

theorem Line.characterComplete_steps (level : Bool) : StepsBy (Line.characterComplete level) := by
  intro l k hk
  unfold Line.characterComplete at hk
  split at hk
  · refine Line.Step.some ?_ hk
    refine (Line.restartTimers_step _).after ((Line.place_step _ _).after ((Line.raiseCarried_step _ _).after ?_))
    exact { Line.Step.refl _ with }
  · exact absurd hk nofun

theorem Line.waitMarkEnd_steps : StepsBy Line.waitMarkEnd := by
  intro l k hk
  unfold Line.waitMarkEnd at hk
  split at hk
  · refine Line.Step.some ?_ hk
    exact { Line.Step.refl l with }
  · exact absurd hk nofun

theorem Line.idleGapFire_steps : StepsBy Line.idleGapFire := by
  intro l k hk
  unfold Line.idleGapFire at hk
  split at hk
  · refine Line.Step.some ?_ hk
    have stopped : l.Step { l with rx := { l.rx with idleTimer := none, armed := false } } := { Line.Step.refl l with }
    dsimp only
    split_ifs
    · exact stopped
    · exact (Line.placeMark_step _ _).after stopped
    · exact (Line.closeBuffer_step _ _).after stopped
    · exact stopped
  · exact absurd hk nofun

/-! ### Transmitter (05) -/

theorem Line.takeSend_steps : StepsBy Line.takeSend := by
  intro l k hk
  unfold Line.takeSend at hk
  split at hk
  · split at hk
    · refine Line.Step.some ?_ hk
      refine (Line.beginJob_step _ _).after ?_
      exact { Line.Step.refl _ with tx := activateHead_kept _, disabled := .of_kept rfl (.refl _) (activateHead_kept _) (.refl _) }
    · exact absurd hk nofun
  · exact absurd hk nofun

theorem Line.composeWaiting_step (l : Line) : l.Step l.composeWaiting := by
  unfold Line.composeWaiting
  split
  · exact l.composePoll_step
  · exact l.composeSend_step

theorem Line.bytesStaged_step (l : Line) (bytes : List Byte) : l.Step (l.bytesStaged bytes) := by
  have staged : l.Step { l with tx := Transmitter.requestRead { l.tx with
      staging := l.tx.staging ++ bytes, bytesRead := l.tx.bytesRead + bytes.length } } :=
    l.txKept_step (Transmitter.requestRead_list _)
  unfold Line.bytesStaged
  dsimp only
  split
  · exact (Line.startCharacter_step _).after staged
  · exact staged

theorem Line.requestFailed_step (l : Line) : l.Step l.requestFailed := by
  unfold Line.requestFailed
  dsimp only
  split
  · exact l.txKept_step rfl
  · exact (Line.stopCharacters_step _ _ _).after (l.txKept_step rfl)

theorem Line.dataReadFailed_step (l : Line) : l.Step l.dataReadFailed := by
  unfold Line.dataReadFailed
  dsimp only
  split
  · exact (Line.stopCharacters_step _ _ _).after (l.txKept_step rfl)
  · exact l.txKept_step rfl

theorem Line.readOver_step (l : Line) (e : ReadEnd (List Byte)) : l.Step (l.readOver e) := by
  have ended : l.Step { l with tx := { l.tx with outstanding := none } } := l.txKept_step rfl
  unfold Line.readOver
  dsimp only
  split
  · exact (Line.composeWaiting_step _).after ended
  · split
    · exact (Line.composeWaiting_step _).after ended
    · split
      · exact (Line.bytesStaged_step _ _).after ended
      · split
        · exact (Line.requestFailed_step _).after ended
        · exact (Line.dataReadFailed_step _).after ended

theorem Line.breakEnd_steps (cts : Bool) : StepsBy (Line.breakEnd cts) := by
  intro l k hk
  unfold Line.breakEnd at hk
  split at hk
  · refine Line.Step.some ?_ hk
    refine (Line.startCharacter_step _).after ((Line.readCts_step _ _).after ?_)
    exact { Line.Step.refl _ with }
  · exact absurd hk nofun

theorem Line.lastCharacterSent_step (l : Line) (j : TxJob) : l.Step (l.lastCharacterSent j) := by
  unfold Line.lastCharacterSent
  split
  · exact l.requestSent_step
  · exact l.stopCharacters_step _ _

theorem Line.characterSent_steps (cts : Bool) : StepsBy (Line.characterSent cts) := by
  intro l k hk
  unfold Line.characterSent at hk
  split at hk
  · refine Line.Step.some ?_ hk
    have sent : l.Step ({ l with tx := { l.tx with sent := l.tx.sent + 1 } }.readCts cts) :=
      (Line.readCts_step _ _).after { Line.Step.refl _ with }
    dsimp only
    split
    · exact (Line.stopCharacters_step _ _ _).after sent
    · split_ifs
      · exact (Line.lastCharacterSent_step _ _).after sent
      · exact (Line.startCharacter_step _).after sent
      · exact sent.trans { Line.Step.refl _ with }
  · exact absurd hk nofun

theorem Line.gapEnd_steps (cts : Bool) : StepsBy (Line.gapEnd cts) := by
  intro l k hk
  unfold Line.gapEnd at hk
  split at hk
  · exact ((Line.startCharacter_step _).after (l.readCts_step cts)).some hk
  · exact absurd hk nofun

theorem Line.ctsAsserted_steps : StepsBy Line.ctsAsserted := by
  intro l k hk
  unfold Line.ctsAsserted at hk
  split at hk
  · exact ((Line.startCharacter_step _).after (l.readCts_step true)).some hk
  · exact absurd hk nofun

theorem Line.ctsTimeout_steps : StepsBy Line.ctsTimeout := by
  intro l k hk
  unfold Line.ctsTimeout at hk
  split at hk
  · exact (l.stopCharacters_step _ _).some hk
  · exact absurd hk nofun

end Sys2Proof.Machine

/-! PROOFS of the invariants of the part, their third layer: what a command can do to the part, said once for all 58 commands
(`exec_effect`), and the induction step that turns it into "every step keeps the invariant". -/

namespace Sys2Proof.Machine

/-- `t` is `s` but for the flags and registers of the window, the notification items and the in-service set, the queue, and
the model's own fields; QBASE and the new counts keep their bounds. -/
structure State.SamePart (s t : State) : Prop where
  state : t.ctl.state = s.ctl.state
  loadEnding : t.ctl.loadEnding = s.ctl.loadEnding
  faultCode : t.ctl.faultCode = s.ctl.faultCode
  faultSource : t.ctl.faultSource = s.ctl.faultSource
  faultRequest : t.notice.faultRequest = s.notice.faultRequest
  block : t.block = s.block
  fetcher : t.fetcher = s.fetcher
  table : t.table = s.table
  dispatched : t.dispatched = s.dispatched
  fences : t.fences = s.fences
  fencesDone : t.fencesDone = s.fencesDone
  backlog : t.backlog = s.backlog
  writer : t.writer = s.writer
  port : t.port = s.port
  lines : t.lines = s.lines
  qbase : s.ctl.qbase.toNat % 128 = 0 → t.ctl.qbase.toNat % 128 = 0
  newCount : (∀ q : CqNo, s.notice.cqs[q].newCount ≤ 64) → ∀ q : CqNo, t.notice.cqs[q].newCount ≤ 64

theorem State.SamePart.refl (s : State) : s.SamePart s :=
  ⟨rfl, rfl, rfl, rfl, rfl, rfl, rfl, rfl, rfl, rfl, rfl, rfl, rfl, rfl, rfl, id, id⟩

/-- The part with the reports `reports` left and the transfer `inFlight` at the port. -/
def State.withPort (s : State) (reports : List Report) (inFlight : Option Transfer) : State :=
  { s with reports := reports, port := { s.port with inFlight := inFlight } }

/-- What a command can do to the part: each of the ways it can leave `t` from `s`, with what has to hold for it. -/
inductive State.Effect (s : State) : State → Prop where
  | quiet {t : State} (same : s.SamePart t) : s.Effect t
  | transferEnds : s.Effect s.transferOver
  | line (n : LineNo) (k : Line) (reports : List Report) (inFlight : Option Transfer)
      (port : inFlight = s.port.inFlight ∨ inFlight = none) (kept : (s.line n).Kept k)
      (mode : k.isPoll = (s.line n).isPoll ∨ (s.line n).state = .disabled) :
      s.Effect ((s.withPort reports inFlight).updateLine n k)
  | query (n : LineNo) (p : CommandProgress) (reports : List Report) :
      s.Effect { s.setLine n { s.line n with progress := p } with reports := reports }
  | started (state : s.ctl.state = .stopped) :
      s.Effect { s with
        ctl := { s.ctl with state := .loading, loadEnding := false }
        fetcher := { s.fetcher with outstanding := some (descriptorRead s.ctl.qbase 0), kept := [] } }
  | stopped (state : s.ctl.state = .running) :
      s.Effect (State.settle allLineProducers settleBound
        { s with ctl := { s.ctl with state := .draining }, lines := s.lines.map Line.stop }).drained
  | loadEnds (state : s.ctl.state = .loading) : s.Effect { s with ctl := { s.ctl with loadEnding := true } }
  | reset (cause : ResetCause) (qbase : Addr) (high : Bool) (aligned : qbase = 0 ∨ qbase = s.ctl.qbase) :
      s.Effect (s.takeReset cause qbase high)
  | posted (q : SqNo) (tail : Nat) (inRing : tail < sqSize s.block q)
      (more : postedCount (sqSize s.block q) s.fetcher.rings[q] s.fetcher.rings[q].tail ≤
        postedCount (sqSize s.block q) s.fetcher.rings[q] tail) :
      s.Effect { s with fetcher := { s.fetcher with
        rings := s.fetcher.rings.set q { s.fetcher.rings[q] with tail := tail } } }
  | released (q : CqNo) (amount : Nat) :
      s.Effect { s with writer := { s.writer with
        rings := s.writer.rings.set q { s.writer.rings[q] with occupancy := s.writer.rings[q].occupancy - amount } } }
  | descriptorRead (t : Transfer) (k : Fin 4) (e : ReadEnd Record) (inFlight : s.port.inFlight = some t)
      (kind : t.kind = .descriptorRead k) : s.Effect (s.transferOver.descriptorReadOver k e)
  | fetchIssued (b : Block) (slot : Slot) (q : SqNo) (credit : Nat) (state : s.ctl.state = .running)
      (idle : s.fetcher.outstanding = none) (block : s.block = some b) (free : s.entry slot = none)
      (eligible : s.eligible q = true) :
      s.Effect { s with
        fetcher := { s.fetcher with
          turn := q, credit := credit, outstanding := some (recordFetch b q s.fetcher.rings[q] slot) }
        table := s.table.set slot (some { sq := q, cq := b.sqs[q].cq, header := none }) }
  | fetched (t : Transfer) (q : SqNo) (slot : Slot) (bytes : List Byte) (inFlight : s.port.inFlight = some t)
      (kind : t.kind = .recordFetch q slot) :
      s.Effect (State.recordFetched
        { s.transferOver with fetcher := { s.fetcher with outstanding := none } } q slot bytes)
  | fetchFailed (t : Transfer) (q : SqNo) (slot : Slot) (inFlight : s.port.inFlight = some t)
      (kind : t.kind = .recordFetch q slot) :
      s.Effect (State.enterFaulted
        { s.transferOver with fetcher := { s.fetcher with outstanding := none } } .sqFetch (.sq q))
  | fenceEnds (q : SqNo) (f : Fence) (held : s.fences[q] = some f) (r : Result) :
      s.Effect (State.settle [.fence] settleBound
        { s with fences := s.fences.set q none, fencesDone := s.fencesDone ++ [(f.slot, r)] })
  | eventOffered (n : LineNo) (may : s.mayOfferEvent n = true) : s.Effect (s.offer (.event n))
  | granted (p : Producer) (room : s.backlog.entries.length < Config.backlogSlots) (waits : p ∈ s.backlog.waiting) :
      s.Effect (State.settle p.siblings settleBound (State.enterBacklog
        { s with backlog := { s.backlog with waiting := s.backlog.waiting.erase p, lastGranted := p } } p))
  | entryTaken (b : Block) (q : CqNo) (e : BacklogEntry) (active : s.ctl.active = true)
      (idle : s.writer.outstanding = none) (block : s.block = some b) (serviceable : s.serviceable q = true)
      (oldest : s.oldestFor q = some e) : s.Effect (s.takeEntry b q e)
  | written (t : Transfer) (q : CqNo) (inFlight : s.port.inFlight = some t) (kind : t.kind = .completionWrite q) :
      s.Effect (s.transferOver.completionWritten q)
  | writeFailed (t : Transfer) (q : CqNo) (inFlight : s.port.inFlight = some t) (kind : t.kind = .completionWrite q) :
      s.Effect (s.transferOver.enterFaulted .cqWrite (.cq q))
  | drained : s.Effect s.drained
  | portGranted (t : Transfer) (r : PortRequester) (next : s.nextGrant = some (t, r)) :
      s.Effect { s with port := { inFlight := some t, last := r } }

/-- Whatever the next state of an outcome, it is one that a command can leave. -/
def State.AffectedTo (s : State) (o : Host.Outcome State Fault Refusal) : Prop := ∀ t, o = .next t → s.Effect t

theorem State.Effect.next {s t : State} (h : s.Effect t) : s.AffectedTo (.next t) := by
  intro u hu
  cases hu
  exact h

theorem State.Effect.still (s : State) : s.Effect s := .quiet { State.SamePart.refl s with }

theorem State.AffectedTo.still (s : State) : s.AffectedTo (.next s) := (State.Effect.still s).next

/-! ### The shapes of a meaning -/

theorem State.write_affected {s : State} {f : Controller → State} (h : s.Effect (f s.ctl)) :
    s.AffectedTo (s.write f) := by
  unfold State.write
  split
  · exact h.next
  · exact .still s

theorem State.endTransfer_affected {s : State} {k : TransferKind → Bool}
    {act : Transfer → State → Host.Outcome State Fault Refusal}
    (h : ∀ t, s.port.inFlight = some t → k t.kind = true → s.AffectedTo (act t s.transferOver)) :
    s.AffectedTo (s.endTransfer k act) := by
  unfold State.endTransfer
  split
  · next t ht =>
    split_ifs with hk
    · exact State.Effect.transferEnds.next
    · exact h t ht hk
    · exact .still s
  · exact .still s

theorem onLine_affected {n : LineNo} {f : Line → Option Line} {s : State}
    (h : ∀ k, f (s.line n) = some k → (s.line n).Kept k ∧ (k.isPoll = (s.line n).isPoll ∨ (s.line n).state = .disabled)) :
    s.AffectedTo (onLine n f s) := by
  unfold onLine
  split
  · next k hk =>
    obtain ⟨kept, mode⟩ := h k hk
    exact State.Effect.next (.line n k s.reports s.port.inFlight (.inl rfl) kept mode)
  · exact .still s

theorem onLine_affected_of_steps {n : LineNo} {f : Line → Option Line} {s : State} (h : StepsBy f) :
    s.AffectedTo (onLine n f s) :=
  onLine_affected fun k hk => ⟨(h _ k hk).toKept, .inl (h _ k hk).isPoll⟩

/-- A transfer of line `n` has ended, and its unit goes on. -/
theorem State.line_transfer_affected {s : State} {n : LineNo} {k : Line} (h : (s.line n).Step k) :
    s.Effect (s.transferOver.updateLine n k) :=
  .line n k s.reports none (.inr rfl) h.toKept (.inl h.isPoll)

/-! ### The host's accesses and the resets -/

theorem State.misplaced_effect (s : State) : s.Effect s.misplaced := .quiet { State.SamePart.refl s with }

theorem State.outOfRange_effect (s : State) : s.Effect s.outOfRange := .quiet { State.SamePart.refl s with }

theorem execStart_affected (upper : BitVec 24) (s : State) : s.AffectedTo (execStart upper s) := by
  refine State.write_affected ?_
  split
  · next h => exact .started h
  · exact s.misplaced_effect

theorem execStop_affected (upper : BitVec 24) (s : State) : s.AffectedTo (execStop upper s) := by
  refine State.write_affected ?_
  split
  · next h => exact .stopped h
  · next h => exact .loadEnds h
  · exact s.misplaced_effect

theorem execReset_affected (upper : BitVec 24) (s : State) : s.AffectedTo (execReset upper s) :=
  State.write_affected (.quiet { State.SamePart.refl s with })

theorem execControlUnknownCommand_affected (value : Word) (s : State) :
    s.AffectedTo (execControlUnknownCommand value s) := by
  refine State.write_affected ?_
  split
  · exact .still s
  · exact s.outOfRange_effect

theorem execControllerResetTake_affected (s : State) : s.AffectedTo (execControllerResetTake s) := by
  unfold execControllerResetTake
  split
  · exact State.Effect.next (.reset _ _ _ (.inr rfl))
  · exact .still s

theorem execDeviceResetAssert_affected (s : State) : s.AffectedTo (execDeviceResetAssert s) := by
  unfold execDeviceResetAssert
  split
  · exact State.Effect.next (.reset _ _ _ (.inl rfl))
  · exact .still s

theorem execDeviceResetRelease_affected (s : State) : s.AffectedTo (execDeviceResetRelease s) := by
  unfold execDeviceResetRelease
  split
  · exact .still s
  · exact State.Effect.next (.reset _ _ _ (.inl rfl))

theorem execStatusWrite_affected (value : Word) (s : State) : s.AffectedTo (execStatusWrite value s) :=
  State.write_affected (.quiet { State.SamePart.refl s with })

/-- An address is a multiple of 128 when its low 7 bits are zero. -/
theorem toNat_mod_128_iff {w : Nat} (x : BitVec w) : x.toNat % 128 = 0 ↔ ∀ i, i < 7 → x.getLsbD i = false := by
  have bit (i : Nat) : (x.toNat % 128).testBit i = (decide (i < 7) && x.getLsbD i) :=
    Nat.testBit_mod_two_pow x.toNat 7 i
  constructor
  · intro h i hi
    have := bit i
    simp_all
  · intro h
    apply Nat.eq_of_testBit_eq
    intro i
    rw [bit i, Nat.zero_testBit, Bool.and_eq_false_imp, decide_eq_true_iff]
    exact h i

/-- The low 7 bits of QBASE are written as zeros (11 R188). -/
theorem qbaseLo_aligned (high : BitVec 8) (low : BitVec 25) : (high ++ (low ++ 0#7)).toNat % 128 = 0 := by
  rw [toNat_mod_128_iff]
  intro i hi
  rw [BitVec.getLsbD_append, if_pos (by omega), BitVec.getLsbD_append, if_pos hi, BitVec.getLsbD_zero]

theorem execQbaseLoWrite_affected (value : Word) (s : State) : s.AffectedTo (execQbaseLoWrite value s) := by
  refine State.write_affected ?_
  split
  · exact .quiet { State.SamePart.refl s with qbase := fun _ => qbaseLo_aligned _ _ }
  · exact s.misplaced_effect

/-- The low bits of QBASE stay when its high bits are written (11 R188). -/
theorem qbaseHi_aligned (high : BitVec 8) (qbase : Addr) (h : qbase.toNat % 128 = 0) :
    (high ++ qbase.extractLsb' 0 32).toNat % 128 = 0 := by
  rw [toNat_mod_128_iff] at *
  intro i hi
  rw [BitVec.getLsbD_append, if_pos (by omega)]
  simpa using fun _ => h i hi

theorem execQbaseHiWrite_affected (value : Word) (s : State) : s.AffectedTo (execQbaseHiWrite value s) := by
  refine State.write_affected ?_
  split
  · exact .quiet { State.SamePart.refl s with qbase := qbaseHi_aligned _ _ }
  · exact s.misplaced_effect

theorem execPost_affected (value : Word) (s : State) : s.AffectedTo (execPost value s) := by
  refine State.write_affected ?_
  unfold State.takePost
  dsimp only
  split_ifs with _ hsize hless
  · exact s.misplaced_effect
  · exact s.outOfRange_effect
  · exact s.outOfRange_effect
  · exact .posted _ _ (by omega) (by omega)

theorem execRelease_affected (value : Word) (s : State) : s.AffectedTo (execRelease value s) := by
  refine State.write_affected ?_
  unfold State.takeRelease
  dsimp only
  split_ifs
  · exact s.misplaced_effect
  · exact s.outOfRange_effect
  · exact s.outOfRange_effect
  · exact .released _ _

/-- New counts stay within 64 where one is replaced by such a count. -/
theorem newCount_set {cqs : Vector CqNotice 4} (q : CqNo) {c : CqNotice} (hc : c.newCount ≤ 64)
    (h : ∀ p : CqNo, cqs[p].newCount ≤ 64) (p : CqNo) : (cqs.set q c)[p].newCount ≤ 64 := by
  simp only [Fin.getElem_fin, Vector.getElem_set]
  split
  · exact hc
  · exact h p

theorem State.takeClaim_effect (s : State) (c : Claim) (word : Word) :
    s.SamePart
      { (s.takeClaim c).updateNotify with ctl := { (s.takeClaim c).updateNotify.ctl with busWord := word } } := by
  cases c with
  | fault => exact { State.SamePart.refl s with }
  | cq q => exact { State.SamePart.refl s with newCount := newCount_set q (Nat.zero_le _) }
  | nothing => exact { State.SamePart.refl s with }

theorem execClaim_affected (lanes : Lanes) (s : State) : s.AffectedTo (execClaim lanes s) := by
  unfold execClaim
  split
  · exact State.Effect.next (.quiet (s.takeClaim_effect _ _))
  · exact State.Effect.next (.quiet { State.SamePart.refl s with })

theorem execEndserv_affected (value : Word) (s : State) : s.AffectedTo (execEndserv value s) := by
  refine State.write_affected ?_
  split
  · exact .still s
  · exact .quiet { State.SamePart.refl s with }

/-! ### Ends of transfers -/

theorem TransferKind.descriptorIndex_eq_some {k : TransferKind} {i : Fin 4} :
    k.descriptorIndex = some i ↔ k = .descriptorRead i := by
  cases k <;> simp [TransferKind.descriptorIndex]

theorem TransferKind.fetchOf_eq_some {k : TransferKind} {x : SqNo × Slot} :
    k.fetchOf = some x ↔ k = .recordFetch x.1 x.2 := by
  cases k <;> simp [TransferKind.fetchOf, Prod.ext_iff]

theorem TransferKind.completionOf_eq_some {k : TransferKind} {q : CqNo} :
    k.completionOf = some q ↔ k = .completionWrite q := by
  cases k <;> simp [TransferKind.completionOf]

theorem execDescriptorReadEnd_affected (e : ReadEnd Record) (s : State) :
    s.AffectedTo (execDescriptorReadEnd e s) := by
  refine State.endTransfer_affected fun t ht hk => ?_
  split
  · next k hkind => exact State.Effect.next (.descriptorRead t k e ht (TransferKind.descriptorIndex_eq_some.mp hkind))
  · next hkind => simp [hkind] at hk

theorem execRecordFetchEnd_affected (e : ReadEnd Record) (s : State) : s.AffectedTo (execRecordFetchEnd e s) := by
  refine State.endTransfer_affected fun t ht hk => ?_
  split
  · next q slot hkind =>
    have kind := TransferKind.fetchOf_eq_some.mp hkind
    cases e with
    | ok bytes => exact State.Effect.next (.fetched t q slot bytes.toList ht kind)
    | busError => exact State.Effect.next (.fetchFailed t q slot ht kind)
  · next hkind => simp [hkind] at hk

theorem execReportWriteEnd_affected (e : WriteEnd) (s : State) : s.AffectedTo (execReportWriteEnd e s) := by
  refine State.endTransfer_affected fun t ht hk => ?_
  split
  · next n _ =>
    have h := (s.line n).reportWritten_step e
    exact State.Effect.next (.line n _ s.reports.tail none (.inr rfl) h.toKept (.inl h.isPoll))
  · next hkind => simp [hkind] at hk

theorem execRxBufferWriteEnd_affected (n : LineNo) (e : WriteEnd) (s : State) :
    s.AffectedTo (execRxBufferWriteEnd n e s) := by
  refine State.endTransfer_affected fun t _ _ => ?_
  cases e with
  | ok => exact State.Effect.next (State.line_transfer_affected (Line.bufferWritten_step _ _))
  | busError => exact State.Effect.next (State.line_transfer_affected (Line.bufferWriteFailed_step _ _))

theorem execReplyWriteEnd_affected (n : LineNo) (e : WriteEnd) (s : State) :
    s.AffectedTo (execReplyWriteEnd n e s) := by
  refine State.endTransfer_affected fun t _ _ => ?_
  cases e with
  | ok => exact State.Effect.next (State.line_transfer_affected (Line.replyWritten_step _ _))
  | busError => exact State.Effect.next (State.line_transfer_affected (Line.replyWriteFailed_step _))

theorem execTxDataReadEnd_affected (n : LineNo) (e : ReadEnd (List Byte)) (cts : Bool) (s : State) :
    s.AffectedTo (execTxDataReadEnd n e cts s) := by
  have goesOn (e : ReadEnd (List Byte)) : s.Effect (s.transferOver.updateLine n (((s.line n).readCts cts).readOver e)) :=
    State.line_transfer_affected ((Line.readOver_step _ _).after (Line.readCts_step _ _))
  refine State.endTransfer_affected fun t _ _ => ?_
  cases e with
  | ok bytes =>
    dsimp only
    split
    · exact (goesOn _).next
    · exact .still s
  | busError => exact (goesOn _).next

theorem execCompletionWriteEnd_affected (e : WriteEnd) (s : State) : s.AffectedTo (execCompletionWriteEnd e s) := by
  refine State.endTransfer_affected fun t ht hk => ?_
  split
  · next q hkind =>
    have kind := TransferKind.completionOf_eq_some.mp hkind
    cases e with
    | ok => exact State.Effect.next (.written t q ht kind)
    | busError => exact State.Effect.next (.writeFailed t q ht kind)
  · next hkind => simp [hkind] at hk

/-! ### Steps of the part's own units -/

theorem State.chooseSq_eligible {s : State} {q : SqNo} {credit : Nat} (h : s.chooseSq = some (q, credit)) :
    s.eligible q = true := by
  unfold State.chooseSq at h
  split at h
  · next hturn => cases h; exact hturn.1
  · split at h
    · next p hp => cases h; exact List.find?_some hp
    · exact absurd h nofun

theorem execFetchIssue_affected (s : State) : s.AffectedTo (execFetchIssue s) := by
  unfold execFetchIssue
  split
  · next hrun =>
    split
    · next b slot rest q credit hb hfree hq =>
      have hslot : slot ∈ s.freeSlots := by simp [hfree]
      have free : s.entry slot = none := by simpa [State.freeSlots] using hslot
      exact State.Effect.next (.fetchIssued b slot q _ hrun.1 hrun.2 hb free (State.chooseSq_eligible hq))
    · exact .still s
  · exact .still s

theorem execFenceWaitSetEmpty_affected (q : SqNo) (s : State) : s.AffectedTo (execFenceWaitSetEmpty q s) := by
  unfold execFenceWaitSetEmpty
  split
  · next f hf =>
    split
    · exact State.Effect.next (.fenceEnds q f hf _)
    · exact .still s
  · exact .still s

theorem execQueryLine_affected (n : LineNo) (s : State) : s.AffectedTo (execQueryLine n s) := by
  unfold execQueryLine
  dsimp only
  split
  · exact State.Effect.next (.query n _ _)
  · exact .still s

theorem execEventOffer_affected (n : LineNo) (s : State) : s.AffectedTo (execEventOffer n s) := by
  unfold execEventOffer
  split
  · next h => exact State.Effect.next (.eventOffered n h)
  · exact .still s

theorem execBacklogGrant_affected (s : State) : s.AffectedTo (execBacklogGrant s) := by
  unfold execBacklogGrant
  split
  · next hroom =>
    split
    · next p hp =>
      have waits : p ∈ s.backlog.waiting := by simpa using List.find?_some hp
      exact State.Effect.next (.granted p hroom waits)
    · exact .still s
  · exact .still s

theorem execWriterTakeEntry_affected (s : State) : s.AffectedTo (execWriterTakeEntry s) := by
  unfold execWriterTakeEntry
  split
  · next hidle =>
    split
    · next b q hb hq =>
      split
      · next e he => exact State.Effect.next (.entryTaken b q e hidle.1 hidle.2 hb (List.find?_some hq) he)
      · exact .still s
    · exact .still s
  · exact .still s

theorem execPortGrant_affected (s : State) : s.AffectedTo (execPortGrant s) := by
  unfold execPortGrant
  split
  · next t r h => exact State.Effect.next (.portGranted t r h)
  · exact .still s

theorem execDelayTimerExpire_affected (q : CqNo) (s : State) : s.AffectedTo (execDelayTimerExpire q s) := by
  unfold execDelayTimerExpire
  dsimp only
  split
  · exact State.Effect.next (.quiet { State.SamePart.refl s with newCount := fun h => newCount_set q (h q) h })
  · exact .still s

/-! ### Every command -/

/-- What each of the 58 commands can do to the part. -/
theorem exec_effect {c : Instr} {s t : State} (h : exec c s = .next t) : s.Effect t := by
  revert t
  change s.AffectedTo (exec c s)
  cases c with
  | start upper => exact execStart_affected upper s
  | stop upper => exact execStop_affected upper s
  | reset upper => exact execReset_affected upper s
  | controlUnknownCommand value => exact execControlUnknownCommand_affected value s
  | controllerResetTake => exact execControllerResetTake_affected s
  | deviceResetAssert => exact execDeviceResetAssert_affected s
  | deviceResetRelease => exact execDeviceResetRelease_affected s
  | statusWrite value => exact execStatusWrite_affected value s
  | qbaseLoWrite value => exact execQbaseLoWrite_affected value s
  | qbaseHiWrite value => exact execQbaseHiWrite_affected value s
  | post value => exact execPost_affected value s
  | release value => exact execRelease_affected value s
  | claim lanes => exact execClaim_affected lanes s
  | endserv value => exact execEndserv_affected value s
  | registerWriteIgnored w => exact .still s
  | descriptorReadEnd e => exact execDescriptorReadEnd_affected e s
  | fetchIssue => exact execFetchIssue_affected s
  | recordFetchEnd e => exact execRecordFetchEnd_affected e s
  | fenceWaitSetEmpty q => exact execFenceWaitSetEmpty_affected q s
  | configureLine n => exact onLine_affected fun k hk => Line.configure_kept hk
  | enableLine n => exact onLine_affected_of_steps Line.enable_steps
  | disableLine n => exact onLine_affected_of_steps Line.disable_steps
  | disabledStep n => exact onLine_affected_of_steps Line.disabledStep_steps
  | queryLine n => exact execQueryLine_affected n s
  | abortLine n => exact onLine_affected_of_steps Line.abort_steps
  | resumeRx n => exact onLine_affected_of_steps Line.resume_steps
  | flushRx n => exact onLine_affected_of_steps Line.flush_steps
  | reportWriteEnd e => exact execReportWriteEnd_affected e s
  | characterComplete n level => exact onLine_affected_of_steps (Line.characterComplete_steps level)
  | idleGapTimerFire n => exact onLine_affected_of_steps Line.idleGapFire_steps
  | fillerTakeEntry n => exact onLine_affected_of_steps Line.fillerTake_steps
  | rxBufferWriteEnd n e => exact execRxBufferWriteEnd_affected n e s
  | txTakeRecord n => exact onLine_affected_of_steps Line.takeSend_steps
  | txDataReadEnd n e cts => exact execTxDataReadEnd_affected n e cts s
  | breakEnd n cts => exact onLine_affected_of_steps (Line.breakEnd_steps cts)
  | txCharacterSent n cts => exact onLine_affected_of_steps (Line.characterSent_steps cts)
  | gapEnd n cts => exact onLine_affected_of_steps (Line.gapEnd_steps cts)
  | ctsAssert n => exact onLine_affected_of_steps Line.ctsAsserted_steps
  | ctsWaitTimeout n => exact onLine_affected_of_steps Line.ctsTimeout_steps
  | pollTakeRecord n => exact onLine_affected_of_steps Line.takePoll_steps
  | guardEnd n => exact onLine_affected_of_steps Line.guardEnd_steps
  | pollTakeEntry n => exact onLine_affected_of_steps Line.pollTakeEntry_steps
  | replyTimeout n => exact onLine_affected_of_steps Line.replyTimeout_steps
  | replyGapFire n => exact onLine_affected_of_steps Line.replyGapFire_steps
  | replyWriteEnd n e => exact execReplyWriteEnd_affected n e s
  | attemptEnd n => exact onLine_affected_of_steps Line.attemptEnd_steps
  | eventOffer n => exact execEventOffer_affected n s
  | backlogGrant => exact execBacklogGrant_affected s
  | writerTakeEntry => exact execWriterTakeEntry_affected s
  | completionWriteEnd e => exact execCompletionWriteEnd_affected e s
  | drainComplete => exact State.Effect.next .drained
  | portGrant => exact execPortGrant_affected s
  | delayTimerExpire q => exact execDelayTimerExpire_affected q s
  | fallingEdge n => exact onLine_affected_of_steps Line.fallingEdge_steps
  | startCheckSample n level => exact onLine_affected_of_steps (Line.startCheck_steps level)
  | dataBitSample n level => exact onLine_affected_of_steps (Line.dataBit_steps level)
  | waitMarkEnd n => exact onLine_affected_of_steps Line.waitMarkEnd_steps
  | awaitEntry n => exact onLine_affected_of_steps Line.awaitEntry_steps

/-- What every effect keeps, every step keeps. -/
theorem kept_by_step {P : State → Prop} (h : ∀ s t : State, P s → s.Effect t → P t) (s t : State) (hs : P s)
    (hstep : step s = .next t) : P t := by
  unfold step at hstep
  split at hstep
  · cases hstep; exact hs
  · next c rest _ =>
    have queued : s.Effect { s with pending := rest } := .quiet { State.SamePart.refl s with }
    exact h _ t (h s _ hs queued) (exec_effect hstep)

end Sys2Proof.Machine

/-! PROOFS of O7 (the controller and the fault state) and O9 (the submission rings): what each effect of a command does to
them, after the frame lemmas of dispatch and of the completion writer. -/

namespace Sys2Proof.Machine

/-! ### What dispatch, capture and entry to FAULTED leave alone -/

/-- The dispatcher and the fence logic touch the table, the lines and their own lists only. -/
structure State.SameRegisters (s t : State) : Prop where
  ctl : t.ctl = s.ctl
  block : t.block = s.block
  fetcher : t.fetcher = s.fetcher
  backlog : t.backlog = s.backlog
  writer : t.writer = s.writer
  notice : t.notice = s.notice
  port : t.port = s.port

theorem State.SameRegisters.refl (s : State) : s.SameRegisters s := ⟨rfl, rfl, rfl, rfl, rfl, rfl, rfl⟩

theorem State.route_registers (s : State) (q : SqNo) (slot : Slot) (n : LineNo) (b : Body) :
    s.SameRegisters (s.route q slot n b) := by
  cases b with
  | fence => exact { State.SameRegisters.refl s with }
  | command => exact { State.SameRegisters.refl s with }
  | send | buffer | poll =>
    simp only [State.route]
    split_ifs <;> exact { State.SameRegisters.refl s with }

theorem State.dispatch_registers (s : State) (q : SqNo) (slot : Slot) (bytes : List Byte) :
    s.SameRegisters (s.dispatch q slot bytes) := by
  unfold State.dispatch
  split
  · exact { State.SameRegisters.refl s with }
  · next line b _ =>
    have h := State.route_registers
      (s.setEntry slot ((s.entry slot).map fun e => { e with header := some (headerOf bytes line) })) q slot
      (line.getD 0) b
    exact ⟨h.ctl, h.block, h.fetcher, h.backlog, h.writer, h.notice, h.port⟩

theorem State.giveUpCredit_eq (s : State) (q : SqNo) :
    ∃ credit, s.giveUpCredit q = { s with fetcher := { s.fetcher with credit := credit } } := by
  unfold State.giveUpCredit
  split
  · exact ⟨0, rfl⟩
  · exact ⟨s.fetcher.credit, rfl⟩

/-- The fetcher after a fetched record was dispatched: its SQ's head one slot on, the credit as the turn leaves it. -/
def Fetcher.headMoved (f : Fetcher) (q : SqNo) (size credit : Nat) : Fetcher :=
  { f with credit := credit, rings := f.rings.set q { f.rings[q] with head := nextSlot size f.rings[q].head } }

/-- The state in which a fetched record is dispatched: the fetch head of its SQ one slot on. -/
def State.fetchAdvanced (s : State) (q : SqNo) : State :=
  { s with fetcher := s.fetcher.headMoved q (sqSize s.block q) s.fetcher.credit }

theorem State.recordFetched_eq (s : State) (q : SqNo) (slot : Slot) (bytes : List Byte) :
    s.recordFetched q slot bytes =
      State.settle [.dispatcher] settleBound (((s.fetchAdvanced q).dispatch q slot bytes).giveUpCredit q) := rfl

theorem State.recordFetched_frame (s : State) (q : SqNo) (slot : Slot) (bytes : List Byte) :
    (s.recordFetched q slot bytes).ctl = s.ctl ∧ (s.recordFetched q slot bytes).block = s.block ∧
    (s.recordFetched q slot bytes).writer = s.writer ∧ (s.recordFetched q slot bytes).notice = s.notice ∧
    (s.recordFetched q slot bytes).port = s.port ∧
    ∃ credit, (s.recordFetched q slot bytes).fetcher = s.fetcher.headMoved q (sqSize s.block q) credit := by
  have moved := (s.fetchAdvanced q).dispatch_registers q slot bytes
  obtain ⟨credit, hcredit⟩ := State.giveUpCredit_eq ((s.fetchAdvanced q).dispatch q slot bytes) q
  simp only [State.recordFetched_eq, State.settle_ctl, State.settle_block, State.settle_writer, State.settle_notice,
    State.settle_port, State.settle_fetcher, hcredit, moved.ctl, moved.block, moved.writer, moved.notice, moved.port,
    moved.fetcher]
  exact ⟨rfl, rfl, rfl, rfl, rfl, credit, rfl⟩

/-- What `noteWritten` does: at most the items of CQ `q` and the pin change. -/
theorem State.noteWritten_eq (s : State) (q : CqNo) (urgent : Bool) :
    ∃ c pin, s.noteWritten q urgent = { s with notice := { s.notice with cqs := s.notice.cqs.set q c, pin := pin } } ∧
      (s.notice.cqs[q].newCount ≤ 64 → c.newCount ≤ 64) := by
  unfold State.noteWritten
  have same : s = { s with notice := { s.notice with cqs := s.notice.cqs.set q s.notice.cqs[q], pin := s.notice.pin } } := by
    simp
  split
  · split
    · exact ⟨_, _, rfl, fun _ => saturate_le _ _⟩
    · exact ⟨_, _, same, id⟩
  · exact ⟨_, _, same, id⟩

theorem State.completionWritten_frame (s : State) (q : CqNo) :
    (s.completionWritten q).ctl = s.ctl ∧ (s.completionWritten q).block = s.block ∧
    (s.completionWritten q).fetcher = s.fetcher ∧ (s.completionWritten q).port = s.port ∧
    (s.completionWritten q).lines = s.lines ∧ (s.completionWritten q).table = s.table ∧
    (s.completionWritten q).notice.faultRequest = s.notice.faultRequest ∧
    (s.completionWritten q).backlog = { s.backlog with entries := removeOldest q s.backlog.entries } ∧
    (s.completionWritten q).writer = { s.writer with
      outstanding := none, rings := s.writer.rings.set q (s.writer.rings[q].written (cqSize s.block q)) } := by
  obtain ⟨c, pin, h, -⟩ := State.noteWritten_eq
    { s with
      writer := { s.writer with outstanding := none,
                                rings := s.writer.rings.set q (s.writer.rings[q].written (cqSize s.block q)) }
      backlog := { s.backlog with entries := removeOldest q s.backlog.entries } } q
    (((s.oldestFor q).map BacklogEntry.urgent).getD false)
  unfold State.completionWritten
  dsimp only
  rw [h]
  exact ⟨rfl, rfl, rfl, rfl, rfl, rfl, rfl, rfl, rfl⟩

theorem State.takeEntry_frame (s : State) (b : Block) (q : CqNo) (e : BacklogEntry) :
    (s.takeEntry b q e).ctl = s.ctl ∧ (s.takeEntry b q e).block = s.block ∧
    (s.takeEntry b q e).fetcher = s.fetcher ∧ (s.takeEntry b q e).notice = s.notice ∧
    (s.takeEntry b q e).port = s.port ∧ (s.takeEntry b q e).writer.rings = s.writer.rings ∧
    ∃ t, (s.takeEntry b q e).writer.outstanding = some t ∧ t.kind = .completionWrite q := by
  cases e <;> exact ⟨rfl, rfl, rfl, rfl, rfl, rfl, _, rfl, rfl⟩

/-- What the port grants: the writer's request, the fetcher's, or a line's or report's, which is of neither's kind. -/
theorem State.nextGrant_cases {s : State} {t : Transfer} {r : PortRequester} (h : s.nextGrant = some (t, r)) :
    s.writer.outstanding = some t ∨ s.fetcher.outstanding = some t ∨
      t.kind.descriptorIndex = none ∧ t.kind.completionOf = none ∧ t.kind.reserved = none := by
  unfold State.nextGrant at h
  split at h
  · exact absurd h nofun
  · split at h
    · next hw => cases h; exact .inl hw
    · obtain ⟨p, -, hp⟩ := List.exists_of_findSome?_eq_some h
      obtain ⟨u, hu, hpair⟩ := Option.map_eq_some_iff.mp hp
      cases hpair
      cases r with
      | fetcher => exact .inr (.inl hu)
      | line n =>
        refine .inr (.inr ?_)
        simp only [State.requestOf, Line.request] at hu
        split at hu
        · cases hu
          dsimp only
          split <;> exact ⟨rfl, rfl, rfl⟩
        · obtain ⟨x, -, hx⟩ := Option.map_eq_some_iff.mp hu
          subst hx
          dsimp only
          split <;> exact ⟨rfl, rfl, rfl⟩
      | report =>
        refine .inr (.inr ?_)
        obtain ⟨x, -, hx⟩ := Option.map_eq_some_iff.mp hu
        subst hx
        exact ⟨rfl, rfl, rfl⟩

/-! ### The controller and the fault state (09 R159, 11 R182) -/

/-- The invariant looks at the controller's state and fault, the fault request and three transfers only; a transfer may be
gone. -/
theorem State.ControllerInv.congr {s t : State} (h : s.ControllerInv) (state : t.ctl.state = s.ctl.state)
    (code : t.ctl.faultCode = s.ctl.faultCode) (source : t.ctl.faultSource = s.ctl.faultSource)
    (ending : t.ctl.loadEnding = s.ctl.loadEnding) (request : t.notice.faultRequest = s.notice.faultRequest)
    (fetcher : t.fetcher.outstanding = s.fetcher.outstanding)
    (inFlight : t.port.inFlight = s.port.inFlight ∨ t.port.inFlight = none)
    (writer : t.writer.outstanding = s.writer.outstanding) : t.ControllerInv where
  fault := by rw [request, state]; exact h.fault
  code := by rw [code, state]; exact h.code
  source := by rw [source, state]; exact h.source
  ending := by rw [ending, state]; exact h.ending
  loading := by rw [fetcher, state]; exact h.loading
  reading := by
    rw [fetcher]
    rcases inFlight with e | e <;> rw [e]
    · exact h.reading
    · exact nofun
  writing := by rw [writer]; exact h.writing

/-- A new transfer at the port, which is no descriptor read or the fetcher's own. -/
theorem State.ControllerInv.granted {s : State} (h : s.ControllerInv) {t : Transfer} {r : PortRequester}
    (hnext : s.nextGrant = some (t, r)) : State.ControllerInv { s with port := { inFlight := some t, last := r } } where
  fault := h.fault
  code := h.code
  source := h.source
  ending := h.ending
  loading := h.loading
  writing := h.writing
  reading u hu hk := by
    cases hu
    rcases State.nextGrant_cases hnext with hw | hf | ⟨hkind, -, -⟩
    · have := h.writing t hw
      cases hkind : t.kind <;> simp_all [TransferKind.descriptorIndex, TransferKind.completionOf]
    · exact hf
    · simp [hkind] at hk

/-- The controller passes between two states that are neither LOADING nor FAULTED. -/
theorem State.ControllerInv.passes {s t : State} (h : s.ControllerInv)
    (hs : s.ctl.state ≠ .loading ∧ s.ctl.state ≠ .faulted) (ht : t.ctl.state ≠ .loading ∧ t.ctl.state ≠ .faulted)
    (hctl : t.ctl = { s.ctl with state := t.ctl.state }) (request : t.notice.faultRequest = s.notice.faultRequest)
    (fetcher : t.fetcher.outstanding = s.fetcher.outstanding) (inFlight : t.port.inFlight = s.port.inFlight)
    (writer : t.writer.outstanding = s.writer.outstanding) : t.ControllerInv where
  fault := by rw [request, h.fault]; simp [hs.2, ht.2]
  code := by
    rw [hctl]
    exact ⟨fun _ => ht.2, fun _ => h.code.mpr hs.2⟩
  source _ := by rw [hctl]; exact h.source hs.2
  ending he := by
    rw [hctl] at he
    exact absurd (h.ending he) hs.1
  loading := by
    rw [fetcher]
    exact fun u hu hk => absurd (h.loading u hu hk) hs.1
  reading := by rw [fetcher, inFlight]; exact h.reading
  writing := by rw [writer]; exact h.writing

theorem State.drained_ctl (s : State) : s.drained.ctl = { s.ctl with state := s.drained.ctl.state } := by
  unfold State.drained; split <;> rfl

theorem State.drained_eq (s : State) : s.drained = { s with ctl := s.drained.ctl } := by
  unfold State.drained; split <;> rfl

/-- The end of a drain, or nothing. -/
theorem State.drained_cases (s : State) :
    s.drained = s ∨ s.ctl.state = .draining ∧ s.tableEmpty = true ∧ s.backlog.entries = [] ∧
      s.drained = { s with ctl := { s.ctl with state := .stopped } } := by
  unfold State.drained
  split
  · next h => exact .inr ⟨h.1, h.2.1, h.2.2, rfl⟩
  · exact .inl rfl

theorem State.ControllerInv.drained {s : State} (h : s.ControllerInv) : s.drained.ControllerInv := by
  rcases s.drained_cases with hd | ⟨hs, -, -, hd⟩
  · rwa [hd]
  · rw [hd]
    exact h.passes (by simp [hs]) (by simp) rfl rfl rfl rfl rfl

/-- Entry to FAULTED with a fault code, once the transfer that failed is over (11 R182). -/
theorem State.enterFaulted_controllerInv (s : State) (code : FaultCode) (source : FaultSource) (hcode : code ≠ .none)
    (hport : s.port.inFlight = none) : (s.enterFaulted code source).ControllerInv where
  fault := by simp [State.enterFaulted, State.updateNotify]
  code := by simp [State.enterFaulted, State.updateNotify, hcode]
  source := by simp [State.enterFaulted, State.updateNotify]
  ending := nofun
  loading := nofun
  reading t ht := by
    have : s.port.inFlight = some t := ht
    simp [hport] at this
  writing := nofun

theorem State.takeReset_controllerInv (s : State) (cause : ResetCause) (qbase : Addr) (high : Bool) :
    (s.takeReset cause qbase high).ControllerInv where
  fault := by simp [State.takeReset, State.reset, Notification.rest]
  code := by simp [State.takeReset, State.reset]
  source _ := rfl
  ending := nofun
  loading := nofun
  reading := nofun
  writing := nofun

/-- The end of a descriptor read in LOADING. -/
theorem State.ControllerInv.descriptorReadOver {s : State} (h : s.ControllerInv) (k : Fin 4) (e : ReadEnd Record)
    (hstate : s.ctl.state = .loading) : (s.transferOver.descriptorReadOver k e).ControllerInv := by
  have hrequest : s.notice.faultRequest = false := by
    have := h.fault
    simp_all
  have hcode : s.ctl.faultCode = .none := h.code.mpr (by simp [hstate])
  have hsource : s.ctl.faultSource = .none := h.source (by simp [hstate])
  unfold State.descriptorReadOver
  dsimp only
  split
  · exact ⟨by simp [State.transferOver, hrequest], by simp [State.transferOver, hcode], fun _ => hsource, nofun, nofun,
      nofun, h.writing⟩
  · next hending =>
    split
    · exact State.enterFaulted_controllerInv _ _ _ (by simp) rfl
    · split
      · exact ⟨h.fault, h.code, h.source, h.ending, fun _ _ _ => hstate, nofun, h.writing⟩
      · split
        · refine ⟨?_, ?_, fun _ => hsource, ?_, nofun, nofun, nofun⟩
          · simp [State.loadBlock, State.updateNotify, State.transferOver, hrequest]
          · simp [State.loadBlock, State.updateNotify, State.transferOver, hcode]
          · exact fun he => absurd he hending
        · exact State.enterFaulted_controllerInv _ _ _ (by simp) rfl

theorem State.ControllerInv.effect (s t : State) (h : s.ControllerInv) (he : s.Effect t) : t.ControllerInv := by
  cases he with
  | quiet same =>
    exact h.congr same.state same.faultCode same.faultSource same.loadEnding same.faultRequest (by rw [same.fetcher])
      (by rw [same.port]; exact .inl rfl) (by rw [same.writer])
  | transferEnds => exact h.congr rfl rfl rfl rfl rfl rfl (.inr rfl) rfl
  | line n k reports inFlight port _ _ =>
    exact h.congr (by simp [State.withPort]) (by simp [State.withPort])
      (by simp [State.withPort]) (by simp [State.withPort]) (by simp [State.withPort]) (by simp [State.withPort])
      (by simpa [State.withPort] using port) (by simp [State.withPort])
  | query => exact h.congr rfl rfl rfl rfl rfl rfl (.inl rfl) rfl
  | started state =>
    have hidle (u : Transfer) (hu : s.fetcher.outstanding = some u) : ¬ u.kind.descriptorIndex.isSome = true := by
      intro hk
      simp [h.loading u hu hk] at state
    refine ⟨?_, ?_, fun _ => h.source (by simp [state]), nofun, fun _ _ _ => rfl, ?_, h.writing⟩
    · have := h.fault
      simp_all
    · have := h.code
      simp_all
    · exact fun u hu hk => absurd hk (hidle u (h.reading u hu hk))
  | stopped state =>
    refine State.ControllerInv.drained ?_
    exact h.passes (by simp [state]) (by simp) (by simp) (by simp) (by simp) (by simp) (by simp)
  | loadEnds state => exact ⟨h.fault, h.code, h.source, fun _ => state, h.loading, h.reading, h.writing⟩
  | reset cause qbase high _ => exact s.takeReset_controllerInv cause qbase high
  | posted | released => exact h.congr rfl rfl rfl rfl rfl rfl (.inl rfl) rfl
  | descriptorRead u k e inFlight kind =>
    have hk : u.kind.descriptorIndex.isSome = true := by simp [kind, TransferKind.descriptorIndex]
    exact h.descriptorReadOver k e (h.loading u (h.reading u inFlight hk) hk)
  | fetchIssued b slot q credit state idle block free eligible =>
    refine ⟨h.fault, h.code, h.source, h.ending, fun u hu hk => ?_, fun u hu hk => ?_, h.writing⟩
    · cases hu
      exact absurd hk (by simp [recordFetch, TransferKind.descriptorIndex])
    · have := h.reading u hu hk
      simp [idle] at this
  | fetched u q slot bytes inFlight kind =>
    obtain ⟨hctl, -, hwriter, hnotice, hport, credit, hfetcher⟩ := State.recordFetched_frame
      { s.transferOver with fetcher := { s.fetcher with outstanding := none } } q slot bytes
    have settled : State.ControllerInv { s.transferOver with fetcher := { s.fetcher with outstanding := none } } :=
      ⟨h.fault, h.code, h.source, h.ending, nofun, nofun, h.writing⟩
    exact settled.congr (by rw [hctl]) (by rw [hctl]) (by rw [hctl]) (by rw [hctl]) (by rw [hnotice])
      (by rw [hfetcher]; rfl) (by rw [hport]; exact .inl rfl) (by rw [hwriter])
  | fetchFailed => exact State.enterFaulted_controllerInv _ _ _ (by simp) rfl
  | fenceEnds => exact h.congr (by simp) (by simp) (by simp) (by simp) (by simp) (by simp) (by simp) (by simp)
  | eventOffered => exact h.congr (by simp) (by simp) (by simp) (by simp) (by simp) (by simp) (by simp) (by simp)
  | granted => exact h.congr (by simp) (by simp) (by simp) (by simp) (by simp) (by simp) (by simp) (by simp)
  | entryTaken b q e =>
    obtain ⟨hctl, -, hfetcher, hnotice, hport, -, u, hu, hkind⟩ := s.takeEntry_frame b q e
    refine ⟨?_, ?_, ?_, ?_, ?_, ?_, ?_⟩
    · rw [hctl, hnotice]; exact h.fault
    · rw [hctl]; exact h.code
    · rw [hctl]; exact h.source
    · rw [hctl]; exact h.ending
    · rw [hctl, hfetcher]; exact h.loading
    · rw [hport, hfetcher]; exact h.reading
    · rw [hu]
      rintro v ⟨⟩
      simp [hkind, TransferKind.completionOf]
  | written u q inFlight kind =>
    obtain ⟨hctl, -, hfetcher, hport, -, -, hrequest, -, hwriter⟩ := s.transferOver.completionWritten_frame q
    refine ⟨?_, ?_, ?_, ?_, ?_, ?_, ?_⟩
    · rw [hctl, hrequest]; exact h.fault
    · rw [hctl]; exact h.code
    · rw [hctl]; exact h.source
    · rw [hctl]; exact h.ending
    · rw [hctl, hfetcher]; exact h.loading
    · rw [hport]; exact nofun
    · rw [hwriter]; exact nofun
  | writeFailed => exact State.enterFaulted_controllerInv _ _ _ (by simp) rfl
  | drained => exact h.drained
  | portGranted u r next => exact h.granted next

/-- Settles O7: every effect of a command keeps the controller's invariant. -/
theorem faultStateKept : Obligations.FaultStateKept :=
  kept_by_step State.ControllerInv.effect

/-! ### Submission rings (08 R140 to R142) -/

theorem nextSlot_inRing (size slot : Nat) : nextSlot size slot < size ∨ nextSlot size slot = 0 := by
  unfold nextSlot; split <;> omega

/-- The invariant looks at the fetcher's rings and transfer and at the loaded block only. -/
theorem State.SubmissionInv.congr {s t : State} (h : s.SubmissionInv) (block : t.block = s.block)
    (rings : t.fetcher.rings = s.fetcher.rings)
    (fetcher : ∀ u, t.fetcher.outstanding = some u → u.kind.reserved.isSome = true →
      s.fetcher.outstanding = some u) : t.SubmissionInv where
  head := by rw [block, rings]; exact h.head
  tail := by rw [block, rings]; exact h.tail
  posted u q i hu hk := by
    rw [block, rings]
    exact h.posted u q i (fetcher u hu (by simp [hk, TransferKind.reserved])) hk

/-- Nothing is being fetched and every ring is empty at slot 0, as after a reset or the loading of a block. -/
theorem State.SubmissionInv.of_rest {s : State} (rings : s.fetcher.rings = Fetcher.rest.rings)
    (idle : ∀ u, s.fetcher.outstanding = some u → u.kind.reserved = none) : s.SubmissionInv where
  head q := .inr (by simp [rings, Fetcher.rest])
  tail q := .inr (by simp [rings, Fetcher.rest])
  posted u q i hu hk := by
    have := idle u hu
    simp [hk, TransferKind.reserved] at this

theorem State.SubmissionInv.descriptorReadOver {s : State} (h : s.SubmissionInv) (k : Fin 4) (e : ReadEnd Record) :
    (s.descriptorReadOver k e).SubmissionInv := by
  unfold State.descriptorReadOver
  dsimp only
  split
  · exact h.congr rfl rfl nofun
  · split
    · exact h.congr rfl rfl nofun
    · split
      · exact h.congr rfl rfl fun u hu hk => by cases hu; exact absurd hk (by simp [descriptorRead, TransferKind.reserved])
      · split
        · exact .of_rest rfl nofun
        · exact .of_rest rfl nofun

/-- The head of one ring moves on with nothing being fetched (08 R144). -/
theorem State.SubmissionInv.headMoved {s t : State} (h : s.SubmissionInv) (q : SqNo) (credit : Nat)
    (block : t.block = s.block) (idle : s.fetcher.outstanding = none)
    (fetcher : t.fetcher = s.fetcher.headMoved q (sqSize s.block q) credit) : t.SubmissionInv where
  head p := by
    rw [block, fetcher]
    by_cases hp : q = p
    · subst hp
      simpa [Fetcher.headMoved] using nextSlot_inRing _ _
    · simpa [Fetcher.headMoved, Fin.val_ne_of_ne hp] using h.head p
  tail p := by
    rw [block, fetcher]
    by_cases hp : q = p
    · subst hp
      simpa [Fetcher.headMoved] using h.tail q
    · simpa [Fetcher.headMoved, Fin.val_ne_of_ne hp] using h.tail p
  posted u p i hu := by
    rw [fetcher] at hu
    simp [Fetcher.headMoved, idle] at hu

/-- A POST inside the ring that takes no posted record back (08 R141). -/
theorem State.SubmissionInv.posts {s : State} (h : s.SubmissionInv) (q : SqNo) (tail : Nat)
    (inRing : tail < sqSize s.block q)
    (more : postedCount (sqSize s.block q) s.fetcher.rings[q] s.fetcher.rings[q].tail ≤
      postedCount (sqSize s.block q) s.fetcher.rings[q] tail) :
    State.SubmissionInv { s with fetcher := { s.fetcher with
      rings := s.fetcher.rings.set q { s.fetcher.rings[q] with tail := tail } } } where
  head p := by
    by_cases hp : q = p
    · subst hp
      simpa using h.head q
    · simpa [Fin.val_ne_of_ne hp] using h.head p
  tail p := by
    by_cases hp : q = p
    · subst hp
      simpa using .inl inRing
    · simpa [Fin.val_ne_of_ne hp] using h.tail p
  posted u p i hu hk := by
    have hp' := h.posted u p i hu hk
    by_cases hp : q = p
    · subst hp
      simpa [postedCount] using Nat.le_trans hp' more
    · simpa [Fin.val_ne_of_ne hp] using hp'

theorem State.SubmissionInv.effect (s t : State) (h : s.SubmissionInv) (he : s.Effect t) : t.SubmissionInv := by
  have keeps {u : State} (block : u.block = s.block) (fetcher : u.fetcher = s.fetcher) : u.SubmissionInv :=
    h.congr block (by rw [fetcher]) (by rw [fetcher]; exact fun _ hu _ => hu)
  cases he with
  | quiet same => exact keeps same.block same.fetcher
  | transferEnds | query | loadEnds | released | portGranted => exact keeps rfl rfl
  | line => exact keeps (by simp [State.withPort]) (by simp [State.withPort])
  | started =>
    exact h.congr rfl rfl fun u hu hk => by cases hu; exact absurd hk (by simp [Machine.descriptorRead, TransferKind.reserved])
  | stopped => exact keeps (by rw [State.drained_eq]; simp) (by rw [State.drained_eq]; simp)
  | reset => exact .of_rest rfl nofun
  | posted q tail inRing more => exact h.posts q tail inRing more
  | descriptorRead u k e => exact (keeps (u := s.transferOver) rfl rfl).descriptorReadOver k e
  | fetchIssued b slot q credit state idle block free eligible =>
    refine ⟨h.head, h.tail, fun u p i hu hk => ?_⟩
    cases hu
    cases hk
    unfold State.eligible at eligible
    simp only [Bool.and_eq_true, decide_eq_true_iff] at eligible
    exact eligible.1.2
  | fetched u q slot bytes =>
    obtain ⟨-, hblock, -, -, -, credit, hfetcher⟩ := State.recordFetched_frame
      { s.transferOver with fetcher := { s.fetcher with outstanding := none } } q slot bytes
    have settled : State.SubmissionInv { s.transferOver with fetcher := { s.fetcher with outstanding := none } } :=
      h.congr rfl rfl nofun
    exact settled.headMoved q credit hblock rfl hfetcher
  | fetchFailed | writeFailed => exact h.congr rfl rfl nofun
  | fenceEnds | eventOffered | granted => exact keeps (by simp) (by simp)
  | entryTaken b q e =>
    obtain ⟨-, hblock, hfetcher, -⟩ := s.takeEntry_frame b q e
    exact keeps hblock hfetcher
  | written u q =>
    obtain ⟨-, hblock, hfetcher, -⟩ := s.transferOver.completionWritten_frame q
    exact keeps hblock hfetcher
  | drained => exact keeps (by rw [State.drained_eq]) (by rw [State.drained_eq])

/-- Settles O9: every effect of a command keeps heads and tails in their rings and the record being fetched posted. -/
theorem submissionRingsKept : Obligations.SubmissionRingsKept :=
  kept_by_step State.SubmissionInv.effect

end Sys2Proof.Machine

/-! PROOFS of the invariants that speak of one line at a time, and O6 (the bounds and the reply window): such an invariant is
kept by every effect of a command once the line's own steps, joins and departures keep it. -/

namespace Sys2Proof.Machine

/-! ### What an accepted record is (01 R9, Table 1.5) -/

theorem lineVerdict_accepted {block : Option Block} {l : Line} {n : LineNo} {k : Kind} {r : List Byte}
    {line : Option LineNo} {b : Body} (h : lineVerdict block l n k r = .accepted line b) :
    line = some n ∧ parseBody block k r = some b ∧ headerFits r = true ∧ recordAdmits l.record b = true ∧
      (k.isData = true → l.state = .enabled) ∧ modeAdmits l.record k = true := by
  unfold lineVerdict at h
  split at h
  · exact absurd h nofun
  · next c hc =>
    split_ifs at h with hfits hdata hmode
    cases h
    simp_all

theorem verdict_accepted {block : Option Block} {lines : Vector Line 16} {r : List Byte} {line : Option LineNo}
    {b : Body} (h : verdict block lines r = .accepted line b) :
    (line = none ∧ b = .fence ∧ Kind.ofCode (field r 0 1) = some .fence ∧ headerFits r = true ∧
      reservedZero r 2 1 = true ∧ reservedZero r 8 24 = true) ∨
    ∃ k n, Kind.ofCode (field r 0 1) = some k ∧ k ≠ .fence ∧ line = some n ∧ n.val = field r 2 1 ∧
      lineVerdict block lines[n] n k r = .accepted line b := by
  unfold verdict at h
  split at h
  · exact absurd h nofun
  · next hk =>
    split at h
    · next hfits =>
      cases h
      simp only [Bool.and_eq_true] at hfits
      exact .inl ⟨rfl, rfl, hk, hfits.1.1, hfits.1.2, hfits.2⟩
    · exact absurd h nofun
  · next k hne hk =>
    split at h
    · next hline =>
      refine .inr ⟨k, ⟨field r 2 1, hline⟩, hk, hne, ?_, rfl, h⟩
      exact (lineVerdict_accepted h).1
    · exact absurd h nofun

/-- The data records are those of the kinds SEND, POST_BUFFER and POLL. -/
theorem isData_of_parseBody {block : Option Block} {k : Kind} {r : List Byte} {b : Body}
    (h : parseBody block k r = some b) (hfence : b ≠ .fence) (hcommand : ∀ c, b ≠ .command c) : k.isData = true := by
  have hfits := (parseBody_iff block k r b).mp h
  cases k <;> simp_all [BodyFits, Kind.isData]

/-- An accepted data record is for an ENABLED line (01 Table 1.5, step 4a). -/
theorem verdict_data_enabled {block : Option Block} {lines : Vector Line 16} {r : List Byte} {line : Option LineNo}
    {b : Body} (h : verdict block lines r = .accepted line b) (hfence : b ≠ .fence) (hcommand : ∀ c, b ≠ .command c) :
    lines[line.getD 0].state = .enabled := by
  rcases verdict_accepted h with ⟨-, hb, -⟩ | ⟨k, n, -, -, hline, -, hv⟩
  · exact absurd hb hfence
  · obtain ⟨-, hbody, -, -, henabled, -⟩ := lineVerdict_accepted hv
    rw [hline]
    exact henabled (isData_of_parseBody hbody hfence hcommand)

/-! ### Invariants of one line -/

/-- Every line satisfies `P`. -/
def State.AllLines (s : State) (P : Line → Prop) : Prop := ∀ n : LineNo, P (s.line n)

/-- After the head buffer has left, what a FLUSH_RX and an ABORT_LINE make of it are steps of the line (04 R81, R82). -/
theorem Line.bufferEntered_step (l : Line) (slot : Slot) (r : Result) : l.nextBuffer.Step (l.bufferEntered slot r) := by
  have entered := ((l.nextBuffer.flushedEntered_step slot r)).trans (Line.recordEntered_step _ slot)
  unfold Line.bufferEntered
  dsimp only
  split
  · exact entered.trans (Line.takeUpFlush_step _)
  · exact entered

/-- `P` holds of a line at rest, and everything that can happen to a line keeps it. -/
structure LineInvariant (P : Line → Prop) : Prop where
  kept : ∀ l k : Line, l.Kept k → P l → P k
  rest : P .rest
  shutDown : ∀ l : Line, P l → P l.shutDown
  dropUnusedEvents : ∀ (block : Option Block) (l : Line), P l → P (l.dropUnusedEvents block)
  event : ∀ (l : Line) (queued : Bool), P l → P { l with event := { l.event with queued := queued } }
  captured : ∀ l : Line, P l → P l.captured
  commandEntered : ∀ l : Line, P l → P l.commandEntered
  sendLeft : ∀ l : Line, P l → P { l with tx := { l.tx with list := l.tx.list.tail } }
  pollLeft : ∀ l : Line, P l → P { l with poll := { l.poll with list := l.poll.list.tail, attempt := .none } }
  nextBuffer : ∀ l : Line, P l → P l.nextBuffer
  joinControl : ∀ (l : Line) (slot : Slot) (c : LineCommand), P l → P (l.joinControl slot c)
  joinSends : ∀ (l : Line) (slot : Slot) (b : SendBody), l.state = .enabled → P l → P (l.joinSends slot b)
  joinPolls : ∀ (l : Line) (slot : Slot) (w : PollWork), l.state = .enabled → P l → P (l.joinPolls slot w)
  joinBuffers : ∀ (l : Line) (slot : Slot) (b : BufferBody), l.state = .enabled → P l → P (l.joinBuffers slot b)

section

variable {P : Line → Prop} {s : State}

theorem State.AllLines.setLine (h : s.AllLines P) (n : LineNo) {l : Line} (hl : P l) : (s.setLine n l).AllLines P := by
  intro k
  rw [State.line_setLine]
  split
  · exact hl
  · exact h k

theorem State.AllLines.congr {t : State} (h : s.AllLines P) (lines : t.lines = s.lines) : t.AllLines P := by
  intro n
  have := h n
  simpa [State.line, lines] using this

theorem State.AllLines.map {t : State} {f : Line → Line} (h : s.AllLines P) (hf : ∀ l, P l → P (f l))
    (lines : t.lines = s.lines.map f) : t.AllLines P := by
  intro n
  have := hf _ (h n)
  simpa [State.line, lines] using this

@[simp] theorem State.enterRecord_lines (s : State) (i : Slot) (r : Result) : (s.enterRecord i r).lines = s.lines := by
  unfold State.enterRecord; split <;> rfl

theorem LineInvariant.producerMovesOn (hP : LineInvariant P) (h : s.AllLines P) (slot : Slot) (r : Result)
    (p : Producer) : (s.producerMovesOn slot r p).AllLines P := by
  cases p with
  | dispatcher | fence | event => exact h.congr rfl
  | control n => exact h.setLine n (hP.commandEntered _ (h n))
  | transmitter n => exact h.setLine n (hP.kept _ _ (Line.recordEntered_step _ _).toKept (hP.sendLeft _ (h n)))
  | data n =>
    simp only [State.producerMovesOn]
    split
    · exact h.setLine n (hP.kept _ _ (Line.recordEntered_step _ _).toKept (hP.pollLeft _ (h n)))
    · exact h.setLine n (hP.kept _ _ (Line.bufferEntered_step _ _ _).toKept (hP.nextBuffer _ (h n)))

theorem LineInvariant.enterBacklog (hP : LineInvariant P) (h : s.AllLines P) (p : Producer) :
    (s.enterBacklog p).AllLines P := by
  unfold State.enterBacklog
  split
  · exact (h.setLine _ (hP.event _ true (h _))).congr rfl
  · split
    · exact hP.producerMovesOn (h.congr (State.enterRecord_lines _ _ _)) _ _ _
    · exact h

theorem LineInvariant.offer (hP : LineInvariant P) (h : s.AllLines P) (p : Producer) : (s.offer p).AllLines P := by
  unfold State.offer
  split
  · exact hP.enterBacklog h p
  · exact h.congr rfl

theorem LineInvariant.settle (hP : LineInvariant P) (ps : List Producer) (k : Nat) (h : s.AllLines P) :
    (State.settle ps k s).AllLines P := by
  induction k generalizing s with
  | zero => exact h
  | succ k ih =>
    unfold State.settle
    split
    · exact h
    · next c cs _ =>
      obtain ⟨j, hj⟩ := State.pickOffer_same s c cs
      refine ih (hP.offer ?_ _)
      rw [hj]
      exact h.congr rfl

/-- A record that is routed joins a list of its line; a data record's line is ENABLED. -/
theorem LineInvariant.route (hP : LineInvariant P) (h : s.AllLines P) (q : SqNo) (slot : Slot) (n : LineNo) (b : Body)
    (henabled : b ≠ .fence → (∀ c, b ≠ .command c) → (s.line n).state = .enabled) : (s.route q slot n b).AllLines P := by
  cases b with
  | fence => exact h.congr rfl
  | command c => exact h.setLine n (hP.joinControl _ _ _ (h n))
  | send w =>
    have enabled := henabled (by simp) (by simp)
    simp only [State.route]
    split_ifs
    · exact h.congr rfl
    · exact h.setLine n (hP.joinPolls _ _ _ enabled (h n))
    · exact h.setLine n (hP.joinSends _ _ _ enabled (h n))
  | buffer w =>
    have enabled := henabled (by simp) (by simp)
    simp only [State.route]
    split_ifs
    · exact h.congr rfl
    · exact h.setLine n (hP.joinBuffers _ _ _ enabled (h n))
  | poll w =>
    have enabled := henabled (by simp) (by simp)
    simp only [State.route]
    split_ifs
    · exact h.congr rfl
    · exact h.setLine n (hP.joinPolls _ _ _ enabled (h n))

theorem LineInvariant.dispatch (hP : LineInvariant P) (h : s.AllLines P) (q : SqNo) (slot : Slot) (bytes : List Byte) :
    (s.dispatch q slot bytes).AllLines P := by
  unfold State.dispatch
  split
  · exact h.congr rfl
  · next line b hv =>
    exact hP.route (s := s.setEntry slot _) (h.congr rfl) q slot _ b fun hf hc => verdict_data_enabled hv hf hc

theorem LineInvariant.recordFetched (hP : LineInvariant P) (h : s.AllLines P) (q : SqNo) (slot : Slot)
    (bytes : List Byte) : (s.recordFetched q slot bytes).AllLines P := by
  rw [State.recordFetched_eq]
  obtain ⟨credit, hcredit⟩ := State.giveUpCredit_eq ((s.fetchAdvanced q).dispatch q slot bytes) q
  rw [hcredit]
  exact hP.settle _ _ ((hP.dispatch (s := s.fetchAdvanced q) (h.congr rfl) q slot bytes).congr rfl)

theorem LineInvariant.enterFaulted (hP : LineInvariant P) (h : s.AllLines P) (code : FaultCode) (source : FaultSource) :
    (s.enterFaulted code source).AllLines P :=
  h.map hP.shutDown rfl

theorem LineInvariant.descriptorReadOver (hP : LineInvariant P) (h : s.AllLines P) (k : Fin 4) (e : ReadEnd Record) :
    (s.descriptorReadOver k e).AllLines P := by
  unfold State.descriptorReadOver
  dsimp only
  split
  · exact h.congr rfl
  · split
    · exact h.map hP.shutDown rfl
    · split
      · exact h.congr rfl
      · split
        · exact h.map (hP.dropUnusedEvents _) rfl
        · exact h.map hP.shutDown rfl

theorem LineInvariant.takeEntry (hP : LineInvariant P) (h : s.AllLines P) (b : Block) (q : CqNo) (e : BacklogEntry) :
    (s.takeEntry b q e).AllLines P := by
  cases e with
  | completion => exact h.congr rfl
  | event cq n => exact (h.setLine n (hP.captured _ (h n))).congr rfl

/-- Every effect of a command keeps an invariant of one line. -/
theorem LineInvariant.effect (hP : LineInvariant P) {t : State} (h : s.AllLines P) (he : s.Effect t) : t.AllLines P := by
  cases he with
  | quiet same => exact h.congr same.lines
  | transferEnds | started | loadEnds | posted | released | fetchIssued | portGranted => exact h.congr rfl
  | line n k reports inFlight _ kept _ =>
    exact hP.settle _ _ (State.AllLines.setLine (s := s.withPort reports inFlight) (h.congr rfl) n
      (hP.kept _ _ kept (h n)))
  | query n p reports => exact (h.setLine n (hP.kept _ _ (Line.progress_step _ p).toKept (h n))).congr rfl
  | stopped =>
    rw [State.drained_eq]
    refine (hP.settle _ _ ?_).congr rfl
    exact h.map (fun l hl => hP.kept _ _ l.stop_step.toKept hl) rfl
  | reset cause qbase high =>
    intro n
    have : (s.takeReset cause qbase high).line n = .rest := by simp [State.line, State.takeReset, State.reset]
    rw [this]
    exact hP.rest
  | descriptorRead u k e => exact hP.descriptorReadOver (s := s.transferOver) (h.congr rfl) k e
  | fetched u q slot bytes => exact hP.recordFetched (s := { s.transferOver with fetcher := _ }) (h.congr rfl) q slot bytes
  | fetchFailed | writeFailed => exact h.map hP.shutDown rfl
  | fenceEnds => exact hP.settle _ _ (h.congr rfl)
  | eventOffered n => exact hP.offer h _
  | granted p =>
    refine hP.settle _ _ (hP.enterBacklog ?_ p)
    exact h.congr rfl
  | entryTaken b q e => exact hP.takeEntry h b q e
  | written u q =>
    obtain ⟨-, -, -, -, hlines, -⟩ := s.transferOver.completionWritten_frame q
    exact h.congr hlines
  | drained => exact h.congr (by rw [State.drained_eq])

end

/-! ### The bounds of a line, its reply window, its rest while DISABLED, and its control list -/

theorem Line.nextBuffer_frame (l : Line) :
    l.nextBuffer.rx = l.rx ∧ l.nextBuffer.tx = l.tx ∧ l.nextBuffer.poll = l.poll ∧ l.nextBuffer.control = l.control ∧
    l.nextBuffer.state = l.state ∧ l.nextBuffer.record = l.record ∧ l.nextBuffer.event.queued = l.event.queued ∧
    l.nextBuffer.filler.errors = 0 ∧ l.nextBuffer.filler.dropped = 0 ∧ l.nextBuffer.filler.assembly = [] := by
  unfold Line.nextBuffer
  split <;> split <;> exact ⟨rfl, rfl, rfl, rfl, rfl, rfl, rfl, rfl, rfl, rfl⟩

theorem Line.joinBuffers_frame (l : Line) (slot : Slot) (b : BufferBody) :
    (l.joinBuffers slot b).rx = l.rx ∧ (l.joinBuffers slot b).tx = l.tx ∧ (l.joinBuffers slot b).poll = l.poll ∧
    (l.joinBuffers slot b).control = l.control ∧ (l.joinBuffers slot b).state = l.state ∧
    (l.joinBuffers slot b).record = l.record ∧ (l.joinBuffers slot b).event = l.event := by
  unfold Line.joinBuffers
  split <;> exact ⟨rfl, rfl, rfl, rfl, rfl, rfl, rfl⟩

theorem lineInvariant_bounded : LineInvariant Line.Bounded where
  kept _ _ h := h.bounds
  rest := by constructor <;> simp [Line.rest, Receiver.rest, Filler.rest, PollEngine.rest]
  shutDown l h := ⟨Nat.zero_le _, h.lost, h.stray, Nat.zero_le _, Nat.zero_le _, Nat.zero_le _, Nat.zero_le _⟩
  dropUnusedEvents block l h := by
    unfold Line.dropUnusedEvents; split <;> exact h
  event _ _ h := h
  captured _ h := { h with stray := Nat.zero_le _ }
  commandEntered _ h := h
  sendLeft _ h := h
  pollLeft _ h := h
  nextBuffer l h := by
    obtain ⟨hrx, -, hpoll, -, -, -, -, herrors, hdropped, hassembly⟩ := l.nextBuffer_frame
    unfold Line.Bounded
    rw [hrx, hpoll, herrors, hdropped, hassembly]
    exact { h with errors := Nat.zero_le _, dropped := Nat.zero_le _, bufferAssembly := Nat.zero_le _ }
  joinControl _ _ _ h := h
  joinSends _ _ _ _ h := h
  joinPolls _ _ _ _ h := h
  joinBuffers l _ _ _ h := by
    unfold Line.joinBuffers
    split
    · exact { h with errors := Nat.zero_le _, dropped := Nat.zero_le _, bufferAssembly := Nat.zero_le _ }
    · exact h

theorem lineInvariant_windowOk : LineInvariant Line.WindowOk where
  kept _ _ h := h.window
  rest := .of_attempt (by simp [Line.rest, PollEngine.rest])
  shutDown l _ := .of_attempt (by simp [Line.shutDown, Line.rest, PollEngine.rest])
  dropUnusedEvents block l h := by
    unfold Line.dropUnusedEvents; split <;> exact h
  event _ _ h := h
  captured _ h := h
  commandEntered _ h := h
  sendLeft _ h := h
  pollLeft _ _ := .of_attempt (by simp)
  nextBuffer l h := by
    obtain ⟨-, -, hpoll, -⟩ := l.nextBuffer_frame
    unfold Line.WindowOk
    rw [hpoll]
    exact h
  joinControl _ _ _ h := h
  joinSends _ _ _ _ h := h
  joinPolls _ _ _ _ h := h
  joinBuffers l slot b _ h := by
    obtain ⟨-, -, hpoll, -⟩ := l.joinBuffers_frame slot b
    unfold Line.WindowOk
    rw [hpoll]
    exact h

theorem lineInvariant_restsDisabled : LineInvariant Line.RestsDisabled where
  kept _ _ h := h.disabled
  rest _ := ⟨rfl, rfl, rfl⟩
  shutDown _ _ _ := ⟨rfl, rfl, rfl⟩
  dropUnusedEvents block l h := by
    unfold Line.dropUnusedEvents; split <;> exact h
  event _ _ h := h
  captured _ h := h
  commandEntered _ h := h
  sendLeft l h hs := by
    obtain ⟨htx, hfiller, hpoll⟩ := h hs
    exact ⟨by simp [htx], hfiller, hpoll⟩
  pollLeft l h hs := by
    obtain ⟨htx, hfiller, hpoll⟩ := h hs
    exact ⟨htx, hfiller, by simp [hpoll]⟩
  nextBuffer l h := by
    obtain ⟨-, htx', hpoll', -, hstate, -⟩ := l.nextBuffer_frame
    intro hs
    obtain ⟨htx, hfiller, hpoll⟩ := h (hstate ▸ hs)
    refine ⟨htx' ▸ htx, ?_, hpoll' ▸ hpoll⟩
    have ht : l.filler.list.tail = [] := by simp [hfiller]
    unfold Line.nextBuffer
    split
    · split <;> rfl
    · next hcons => simp [ht] at hcons
  joinControl _ _ _ h := h
  joinSends l _ _ he _ hs := by
    have : l.state = .disabled := hs
    simp [he] at this
  joinPolls l _ _ he _ hs := by
    have : l.state = .disabled := hs
    simp [he] at this
  joinBuffers l slot b he _ hs := by
    obtain ⟨-, -, -, -, hstate, -⟩ := l.joinBuffers_frame slot b
    rw [hstate, he] at hs
    exact absurd hs nofun

/-- Behind the head of the control list every command is LISTED (02 R31). -/
def Line.ControlListed (l : Line) : Prop := ∀ x ∈ l.control.tail, x.phase = .listed

theorem lineInvariant_controlListed : LineInvariant Line.ControlListed where
  kept _ _ h hl := by
    unfold Line.ControlListed
    rw [h.control.2]
    exact hl
  rest := by simp [Line.ControlListed, Line.rest]
  shutDown l _ := by simp [Line.ControlListed, Line.shutDown, Line.rest]
  dropUnusedEvents block l h := by
    unfold Line.dropUnusedEvents; split <;> exact h
  event _ _ h := h
  captured _ h := h
  commandEntered l h := by
    unfold Line.ControlListed Line.commandEntered
    intro x hx
    have htail : (activateHead l.control.tail).tail = l.control.tail.tail := by cases l.control.tail <;> rfl
    rw [htail] at hx
    exact h x (List.mem_of_mem_tail hx)
  sendLeft _ h := h
  pollLeft _ h := h
  nextBuffer l h := by
    unfold Line.ControlListed
    rw [l.nextBuffer_control]
    exact h
  joinControl l slot c h := by
    unfold Line.ControlListed Line.joinControl at *
    cases hc : l.control with
    | nil => simp
    | cons m ms =>
      rw [hc] at h
      intro x hx
      simp only [List.cons_append, List.tail_cons, List.mem_append, List.mem_singleton] at hx h
      rcases hx with hx | hx
      · exact h x hx
      · subst hx; simp
  joinSends _ _ _ _ h := h
  joinPolls _ _ _ _ h := h
  joinBuffers l slot b _ h := by
    obtain ⟨-, -, -, hcontrol, -⟩ := l.joinBuffers_frame slot b
    unfold Line.ControlListed
    rw [hcontrol]
    exact h

/-! ### The bounds of the part -/

theorem State.withinBounds_iff (s : State) :
    s.WithinBounds ↔ s.ctl.qbase.toNat % 128 = 0 ∧ s.backlog.entries.length ≤ 32 ∧
      (∀ q : CqNo, s.notice.cqs[q].newCount ≤ 64) ∧ s.AllLines Line.Bounded :=
  ⟨fun h => ⟨h.qbase, h.backlog, h.newCount, fun n => (Line.withinBounds_iff _).mp (h.lines n)⟩,
    fun ⟨hq, hb, hc, hl⟩ => ⟨hq, hb, hc, fun n => (Line.withinBounds_iff _).mpr (hl n)⟩⟩

/-- QBASE keeps the multiples of 128 through every effect (11 R188). -/
theorem State.Effect.qbase {s t : State} (he : s.Effect t) (h : s.ctl.qbase.toNat % 128 = 0) :
    t.ctl.qbase.toNat % 128 = 0 := by
  have keeps {t : State} (hq : t.ctl.qbase = s.ctl.qbase) : t.ctl.qbase.toNat % 128 = 0 := by rw [hq]; exact h
  cases he with
  | quiet same => exact same.qbase h
  | transferEnds | query | started | loadEnds | posted | released | fetchIssued | fetchFailed | writeFailed | portGranted =>
    exact keeps rfl
  | line | fenceEnds | eventOffered | granted => exact keeps (by simp [State.withPort])
  | stopped => exact keeps (by rw [State.drained_ctl]; simp)
  | reset cause qbase high aligned =>
    rcases aligned with rfl | rfl
    · rfl
    · exact h
  | descriptorRead u k e =>
    refine keeps ?_
    unfold State.descriptorReadOver
    dsimp only
    split
    · rfl
    · split
      · rfl
      · split
        · rfl
        · split <;> rfl
  | fetched u q slot bytes =>
    have hctl := (State.recordFetched_frame
      { s.transferOver with fetcher := { s.fetcher with outstanding := none } } q slot bytes).1
    exact keeps (by rw [hctl]; rfl)
  | entryTaken b q e => exact keeps (by rw [(s.takeEntry_frame b q e).1])
  | written u q => exact keeps (by rw [(s.transferOver.completionWritten_frame q).1]; rfl)
  | drained => exact keeps (by rw [State.drained_ctl])

/-- New counts stay within 64 through every effect (09 R155). -/
theorem State.Effect.newCount {s t : State} (he : s.Effect t) (h : ∀ q : CqNo, s.notice.cqs[q].newCount ≤ 64) :
    ∀ q : CqNo, t.notice.cqs[q].newCount ≤ 64 := by
  have keeps {t : State} (hn : t.notice.cqs = s.notice.cqs) : ∀ q : CqNo, t.notice.cqs[q].newCount ≤ 64 := by
    rw [hn]; exact h
  have faulted (u : State) (c : FaultCode) (x : FaultSource) (hu : u.notice.cqs = s.notice.cqs) :
      ∀ q : CqNo, (u.enterFaulted c x).notice.cqs[q].newCount ≤ 64 := by
    intro q
    simpa [State.enterFaulted, State.updateNotify, hu] using h q
  cases he with
  | quiet same => exact same.newCount h
  | transferEnds | query | started | loadEnds | posted | released | fetchIssued | portGranted => exact keeps rfl
  | line | fenceEnds | eventOffered | granted => exact keeps (by simp [State.withPort])
  | stopped => exact keeps (by rw [State.drained_eq]; simp)
  | reset cause qbase high => intro q; simp [State.takeReset, State.reset, Notification.rest]
  | descriptorRead u k e =>
    unfold State.descriptorReadOver
    dsimp only
    split
    · exact keeps rfl
    · split
      · exact faulted _ _ _ rfl
      · split
        · exact keeps rfl
        · split
          · intro q; simp [State.loadBlock, State.updateNotify, Notification.rest]
          · exact faulted _ _ _ rfl
  | fetched u q slot bytes =>
    obtain ⟨-, -, -, hnotice, -⟩ := State.recordFetched_frame
      { s.transferOver with fetcher := { s.fetcher with outstanding := none } } q slot bytes
    exact keeps (by rw [hnotice]; rfl)
  | fetchFailed | writeFailed => exact faulted _ _ _ rfl
  | entryTaken b q e =>
    obtain ⟨-, -, -, hnotice, -⟩ := s.takeEntry_frame b q e
    exact keeps (by rw [hnotice])
  | written u q =>
    unfold State.completionWritten
    dsimp only
    obtain ⟨c, pin, hw, hc⟩ := State.noteWritten_eq _ q _
    rw [hw]
    exact newCount_set q (hc (h q)) h
  | drained => exact keeps (by rw [State.drained_eq])

theorem replaceOldest_length (q : CqNo) (e : BacklogEntry) (es : List BacklogEntry) :
    (replaceOldest q e es).length = es.length := by
  induction es with
  | nil => rfl
  | cons x xs ih =>
    unfold replaceOldest
    split
    · rfl
    · simp [ih]

theorem removeOldest_length (q : CqNo) (es : List BacklogEntry) : (removeOldest q es).length ≤ es.length := by
  induction es with
  | nil => exact Nat.le_refl _
  | cons x xs ih =>
    unfold removeOldest
    split
    · simp
    · simpa using ih

/-- The backlog stays within its 32 slots through every effect (01 R17). -/
theorem State.Effect.backlogLength {s t : State} (he : s.Effect t) (h : s.backlog.entries.length ≤ 32) :
    t.backlog.entries.length ≤ 32 := by
  have settles (ps : List Producer) (k : Nat) (u : State) (hu : u.backlog.entries.length ≤ 32) :
      (State.settle ps k u).backlog.entries.length ≤ 32 := State.settle_entries_length ps k u hu
  cases he with
  | quiet same => rw [same.backlog]; exact h
  | transferEnds | query | started | loadEnds | posted | released | fetchIssued | portGranted => exact h
  | line => exact settles _ _ _ h
  | stopped => rw [State.drained_eq]; exact settles _ _ _ h
  | reset => exact Nat.zero_le _
  | descriptorRead u k e =>
    unfold State.descriptorReadOver
    dsimp only
    split
    · exact h
    · split
      · exact Nat.zero_le _
      · split
        · exact h
        · split
          · exact h
          · exact Nat.zero_le _
  | fetched u q slot bytes =>
    rw [State.recordFetched_eq]
    refine settles _ _ _ ?_
    obtain ⟨credit, hcredit⟩ := State.giveUpCredit_eq
      ((State.fetchAdvanced { s.transferOver with fetcher := { s.fetcher with outstanding := none } } q).dispatch q slot
        bytes) q
    rw [hcredit]
    have hb := (State.fetchAdvanced { s.transferOver with
      fetcher := { s.fetcher with outstanding := none } } q).dispatch_registers q slot bytes
    simp only [hb.backlog]
    exact h
  | fetchFailed | writeFailed => exact Nat.zero_le _
  | fenceEnds => exact settles _ _ _ h
  | eventOffered n _ => exact s.offer_entries_length _ h
  | granted p room _ => exact settles _ _ _ (Nat.le_trans (State.enterBacklog_entries_length _ _) room)
  | entryTaken b q e =>
    cases e with
    | completion => exact h
    | event cq n => exact (replaceOldest_length _ _ _).trans_le h
  | written u q =>
    obtain ⟨-, -, -, -, -, -, -, hbacklog, -⟩ := s.transferOver.completionWritten_frame q
    rw [hbacklog]
    exact Nat.le_trans (removeOldest_length _ _) h
  | drained => rw [State.drained_eq]; exact h

/-- Settles O6: every effect of a command keeps the bounds of the registers, of the backlog and of each line, and each line's
reply window open. -/
theorem boundsKept : Obligations.BoundsKept := by
  refine ⟨kept_by_step fun s t h he => ?_, kept_by_step fun s t h he => ?_⟩
  · rw [State.withinBounds_iff] at *
    obtain ⟨hqbase, hbacklog, hcount, hlines⟩ := h
    exact ⟨he.qbase hqbase, he.backlogLength hbacklog, he.newCount hcount, lineInvariant_bounded.effect hlines he⟩
  · exact lineInvariant_windowOk.effect h he

end Sys2Proof.Machine

/-! PROOFS of O10: every request-table entry in use stands in exactly one place. The places of an entry are counted place by
place; an admission takes one away with its entry, a dispatch moves one, a line's step moves none. -/

namespace Sys2Proof.Machine

/-! ### The offers of a moment, one at a time -/

theorem State.pickOffer_mem (s : State) (c : Producer) (cs : List Producer) : (s.pickOffer c cs).1 ∈ c :: cs := by
  cases cs with
  | nil => exact List.mem_singleton_self c
  | cons d ds =>
    simp only [State.pickOffer]
    rw [List.getD_eq_getElem _ _ (Nat.mod_lt _ (by simp))]
    exact List.getElem_mem _

theorem State.mem_newOffers {s : State} {ps : List Producer} {p : Producer} :
    p ∈ s.newOffers ps ↔ p ∈ ps ∧ (s.onOffer p).isSome = true ∧ p ∉ s.backlog.waiting := by
  simp [State.newOffers]

/-- What every single admission and every single wait of the producers `ps` keeps, the offers of a moment keep. -/
theorem State.settle_induction {P : State → Prop} (ps : List Producer)
    (made : ∀ (s : State) (j : Nat), P s → P { s with offersMade := j })
    (admits : ∀ (s : State) (p : Producer), P s → p ∈ ps → (s.onOffer p).isSome = true → p ∉ s.backlog.waiting →
      s.hasRoom → P (s.enterBacklog p))
    (waits : ∀ (s : State) (p : Producer), P s → p ∈ ps → (s.onOffer p).isSome = true → p ∉ s.backlog.waiting →
      P (s.withWaiting p))
    (k : Nat) {s : State} (h : P s) : P (State.settle ps k s) := by
  induction k generalizing s with
  | zero => exact h
  | succ k ih =>
    unfold State.settle
    split
    · exact h
    · next c cs hnew =>
      have hmem := s.pickOffer_mem c cs
      rw [← hnew, State.mem_newOffers] at hmem
      obtain ⟨hps, hoffer, hwaiting⟩ := hmem
      obtain ⟨j, hj⟩ := State.pickOffer_same s c cs
      apply ih
      rw [hj]
      have hoffer' : (State.onOffer { s with offersMade := j } (s.pickOffer c cs).1).isSome = true := by
        rw [← hoffer]
        cases (s.pickOffer c cs).1 <;> rfl
      unfold State.offer
      split
      · next hroom => exact admits _ _ (made s j h) hps hoffer' hwaiting hroom
      · exact waits _ _ (made s j h) hps hoffer' hwaiting

/-! ### Counting the places of an entry -/

/-- The entry a record fetch outstanding is to fill. -/
def Fetcher.reserved (f : Fetcher) : Option Slot := f.outstanding.bind fun t => t.kind.reserved

/-- The sum over a ring's or the part's lines of what each holds. -/
theorem count_flatMap_vector {α : Type} {n : Nat} (xs : Vector α n) (f : α → List Slot) (i : Slot) :
    (xs.toList.flatMap f).count i = ∑ k : Fin n, (f xs[k]).count i := by
  have hlist : xs.toList = List.ofFn fun k : Fin n => xs[k] := by
    apply List.ext_getElem <;> simp
  rw [List.count_flatMap, hlist, List.map_ofFn, List.sum_ofFn]
  rfl

/-- How often an entry stands in the fetcher, the dispatcher, the fence logic and the lines' lists, added up. -/
theorem State.count_heldSlots (s : State) (i : Slot) :
    s.heldSlots.count i =
      s.fetcher.reserved.toList.count i + (s.dispatched.map Prod.fst).count i + (s.fencesDone.map Prod.fst).count i +
        ∑ q : SqNo, (s.fences[q].map Fence.slot).toList.count i + ∑ n : LineNo, (s.line n).heldSlots.count i := by
  have hfences : s.fences.toList.filterMap (fun f => f.map Fence.slot) =
      s.fences.toList.flatMap fun f => (f.map Fence.slot).toList := by
    rw [List.filterMap_eq_flatMap_toList]
  unfold State.heldSlots
  rw [hfences]
  simp only [List.count_append, count_flatMap_vector]
  rfl

/-- Sums that differ at one place. -/
theorem sum_change {n : Nat} (f g : Fin n → Nat) (k : Fin n) (h : ∀ j, j ≠ k → g j = f j) :
    ∑ j, g j + f k = ∑ j, f j + g k := by
  have hf : f k + ∑ j ∈ Finset.univ.erase k, f j = ∑ j, f j := Finset.add_sum_erase _ f (Finset.mem_univ k)
  have hg : g k + ∑ j ∈ Finset.univ.erase k, g j = ∑ j, g j := Finset.add_sum_erase _ g (Finset.mem_univ k)
  have hrest : ∑ j ∈ Finset.univ.erase k, g j = ∑ j ∈ Finset.univ.erase k, f j :=
    Finset.sum_congr rfl fun j hj => h j (Finset.ne_of_mem_erase hj)
  omega

/-- A line changes: the places of an entry change by what the line held and holds. -/
theorem State.count_heldSlots_setLine (s : State) (n : LineNo) (l : Line) (i : Slot) :
    (s.setLine n l).heldSlots.count i + (s.line n).heldSlots.count i = s.heldSlots.count i + l.heldSlots.count i := by
  have hsum : ∑ k : LineNo, ((s.setLine n l).line k).heldSlots.count i + (s.line n).heldSlots.count i =
      ∑ k : LineNo, (s.line k).heldSlots.count i + ((s.setLine n l).line n).heldSlots.count i :=
    sum_change (fun k => (s.line k).heldSlots.count i) (fun k => ((s.setLine n l).line k).heldSlots.count i) n
      fun k hk => by simp only [State.line_setLine_other s l hk]
  rw [State.line_setLine_same] at hsum
  rw [State.count_heldSlots, State.count_heldSlots s]
  simp only [State.setLine_fetcher, State.setLine_dispatched, State.setLine_fencesDone, State.setLine_fences]
  linarith only [hsum]

/-- The places look at the fetcher's transfer, the dispatcher, the fences' entries and the lines' lists only. -/
theorem State.count_heldSlots_congr {s t : State} (i : Slot) (fetcher : t.fetcher.reserved = s.fetcher.reserved)
    (dispatched : t.dispatched = s.dispatched) (fencesDone : t.fencesDone = s.fencesDone)
    (fences : ∀ q : SqNo, t.fences[q].map Fence.slot = s.fences[q].map Fence.slot)
    (lines : ∀ n, (t.line n).heldSlots = (s.line n).heldSlots) : t.heldSlots.count i = s.heldSlots.count i := by
  simp only [State.count_heldSlots, fetcher, dispatched, fencesDone, fences, lines]

/-- Every entry in use stands in exactly one place and a free one in none. -/
def State.PlacesOk (s : State) : Prop := ∀ i : Slot, s.heldSlots.count i = if (s.entry i).isSome then 1 else 0

theorem State.PlacesOk.congr {s t : State} (h : s.PlacesOk) (table : t.table = s.table)
    (fetcher : t.fetcher.reserved = s.fetcher.reserved)
    (dispatched : t.dispatched = s.dispatched) (fencesDone : t.fencesDone = s.fencesDone)
    (fences : ∀ q : SqNo, t.fences[q].map Fence.slot = s.fences[q].map Fence.slot)
    (lines : ∀ n, (t.line n).heldSlots = (s.line n).heldSlots) : t.PlacesOk := by
  intro i
  have hi := h i
  have hentry : t.entry i = s.entry i := by simp only [State.entry, table]
  rw [State.count_heldSlots_congr i fetcher dispatched fencesDone fences lines, hi, hentry]

/-- A part whose table is empty and which holds nothing anywhere. -/
theorem State.PlacesOk.of_empty {s : State} (table : ∀ i, s.entry i = none) (held : ∀ i, s.heldSlots.count i = 0) :
    s.PlacesOk := by
  intro i
  simp [held i, table i]

theorem Line.Kept.heldSlots {l k : Line} (h : l.Kept k) : k.heldSlots = l.heldSlots := by
  simp [Line.heldSlots, h.control.1.memberSlots, h.filler.memberSlots, h.tx.memberSlots, h.poll.memberSlots]

theorem State.PlacesOk.setLine {s : State} (h : s.PlacesOk) (n : LineNo) {l : Line}
    (hl : l.heldSlots = (s.line n).heldSlots) : (s.setLine n l).PlacesOk :=
  h.congr rfl rfl rfl rfl (fun _ => rfl) fun k => by
    rw [State.line_setLine]
    split
    · next hk => rw [hl, hk]
    · rfl

/-! ### Admissions -/

theorem headResult_eq_some {β : Type} {xs : List (Member β)} {slot : Slot} {r : Result}
    (h : headResult xs = some (slot, r)) : ∃ m ms, xs = m :: ms ∧ m.slot = slot ∧ m.phase = .finishing r := by
  cases xs with
  | nil => exact absurd h nofun
  | cons m ms =>
    obtain ⟨i, phase, body⟩ := m
    cases phase <;> simp [headResult] at h
    exact ⟨_, _, rfl, h.1, by simp [h.2]⟩

/-- The head of a list, whose completion is on offer, leaves it. -/
theorem memberSlots_tail {β : Type} {xs : List (Member β)} {slot : Slot} {r : Result}
    (h : headResult xs = some (slot, r)) : memberSlots xs = slot :: memberSlots xs.tail := by
  obtain ⟨m, ms, rfl, rfl, -⟩ := headResult_eq_some h
  rfl

theorem activateHead_memberSlots {β : Type} (xs : List (Member β)) : memberSlots (activateHead xs) = memberSlots xs :=
  (activateHead_kept xs).memberSlots

theorem Line.nextBuffer_memberSlots (l : Line) :
    memberSlots l.nextBuffer.filler.list = memberSlots l.filler.list.tail := by
  unfold Line.nextBuffer
  split
  · next h => split <;> simp [h, raise]
  · next m ms h =>
    rw [h]
    split
    · exact activateHead_memberSlots (m :: ms)
    · rfl

/-- The line after its producer `p` has moved on (01 R20). -/
def Line.movedOn (l : Line) (slot : Slot) (r : Result) : Producer → Line
  | .control _ => l.commandEntered
  | .data _ => if l.isPoll then l.pollEntered slot else l.bufferEntered slot r
  | .transmitter _ => l.sendEntered slot
  | _ => l

/-- What the producer of a line has on offer. -/
def Line.onOffer (l : Line) : Producer → Option (Slot × Result)
  | .control _ => headResult l.control
  | .data _ => if l.isPoll then headResult l.poll.list else headResult l.filler.list
  | .transmitter _ => headResult l.tx.list
  | _ => none

/-- The line gives up the entry whose completion its producer had on offer, and no other. -/
theorem Line.movedOn_heldSlots (l : Line) {slot : Slot} {r : Result} {p : Producer} (h : l.onOffer p = some (slot, r)) :
    l.heldSlots.Perm (slot :: (l.movedOn slot r p).heldSlots) := by
  cases p with
  | dispatcher | fence | event => exact absurd h nofun
  | control n =>
    have ht := memberSlots_tail h
    simp [Line.movedOn, Line.heldSlots, Line.commandEntered, ht, activateHead_memberSlots]
  | transmitter n =>
    have hk := (Line.recordEntered_step { l with tx := { l.tx with list := l.tx.list.tail } } slot).toKept.heldSlots
    have ht := memberSlots_tail h
    simp only [Line.movedOn, Line.sendEntered, hk]
    simp only [Line.heldSlots, ht, List.cons_append, List.append_assoc]
    rw [← List.append_assoc, ← List.append_assoc (memberSlots l.control)]
    exact List.perm_middle
  | data n =>
    simp only [Line.onOffer, Line.movedOn] at h ⊢
    split at h
    · next hp =>
      have ht := memberSlots_tail h
      have hk := (Line.recordEntered_step
        { l with poll := { l.poll with list := l.poll.list.tail, attempt := .none } } slot).toKept.heldSlots
      rw [if_pos hp, Line.pollEntered, hk]
      simp only [Line.heldSlots, ht]
      exact List.perm_middle
    · next hp =>
      have ht := memberSlots_tail h
      obtain ⟨-, htx, hpoll, hcontrol, -⟩ := l.nextBuffer_frame
      have hk := (l.bufferEntered_step slot r).toKept.heldSlots
      rw [if_neg hp, hk]
      simp only [Line.heldSlots, htx, hpoll, hcontrol, l.nextBuffer_memberSlots, ht, List.append_assoc, List.cons_append]
      exact List.perm_middle

/-- The line of a producer, if it is one of a line's. -/
def Producer.lineOf : Producer → Option LineNo
  | .control n => some n
  | .data n => some n
  | .transmitter n => some n
  | _ => none

theorem State.producerMovesOn_line (s : State) (slot : Slot) (r : Result) {p : Producer} {n : LineNo}
    (h : p.lineOf = some n) : s.producerMovesOn slot r p = s.setLine n ((s.line n).movedOn slot r p) := by
  cases p <;> cases h
  · rfl
  · simp only [State.producerMovesOn, Line.movedOn]
    split <;> rfl
  · rfl

theorem State.onOffer_line (s : State) {p : Producer} {n : LineNo} (h : p.lineOf = some n) :
    s.onOffer p = (s.line n).onOffer p := by
  cases p <;> cases h <;> rfl

/-- A record's completion enters, its entry freed: the fences keep their entries, the lines and lists stay. -/
theorem State.enterRecord_frame (s : State) (slot : Slot) (r : Result) :
    (s.enterRecord slot r).dispatched = s.dispatched ∧ (s.enterRecord slot r).fencesDone = s.fencesDone ∧
    (s.enterRecord slot r).lines = s.lines ∧ (s.enterRecord slot r).fetcher = s.fetcher ∧
    (∀ q : SqNo, (s.enterRecord slot r).fences[q].map Fence.slot = s.fences[q].map Fence.slot) ∧
    (s.enterRecord slot r).backlog.waiting = s.backlog.waiting := by
  unfold State.enterRecord
  split
  · exact ⟨rfl, rfl, rfl, rfl, fun _ => rfl, rfl⟩
  · refine ⟨rfl, rfl, rfl, rfl, fun q => ?_, rfl⟩
    simp [State.leaveWaitSets, Function.comp_def]

theorem State.enterRecord_entry (s : State) (slot : Slot) (r : Result) (i : Slot) :
    (s.enterRecord slot r).entry i = if i = slot then none else s.entry i := by
  unfold State.enterRecord
  split
  · next h =>
    split
    · next hi => rw [hi, h]
    · rfl
  · simp only [State.leaveWaitSets, State.entry]
    split
    · next hi => simp [hi]
    · next hi => simp [Fin.val_ne_of_ne (Ne.symm hi)]

theorem State.producerMovesOn_frame (s : State) (slot : Slot) (r : Result) (p : Producer) :
    (s.producerMovesOn slot r p).table = s.table ∧ (s.producerMovesOn slot r p).fences = s.fences ∧
    (s.producerMovesOn slot r p).backlog = s.backlog := by
  refine ⟨State.producerMovesOn_table _ _ _ _, ?_, State.producerMovesOn_backlog _ _ _ _⟩
  cases p with
  | dispatcher | fence | event | control | transmitter => rfl
  | data n =>
    simp only [State.producerMovesOn]
    split <;> rfl

/-- An admission takes one place away from the entry it frees. -/
theorem State.count_producerMovesOn (s : State) {slot : Slot} {r : Result} {p : Producer}
    (h : s.onOffer p = some (slot, r)) (i : Slot) :
    s.heldSlots.count i = (s.producerMovesOn slot r p).heldSlots.count i + if slot = i then 1 else 0 := by
  have lists {n : LineNo} (hp : p.lineOf = some n) :
      s.heldSlots.count i = (s.producerMovesOn slot r p).heldSlots.count i + if slot = i then 1 else 0 := by
    rw [State.onOffer_line s hp] at h
    rw [State.producerMovesOn_line s slot r hp]
    have hset := s.count_heldSlots_setLine n ((s.line n).movedOn slot r p) i
    have hperm := ((s.line n).movedOn_heldSlots h).count_eq i
    rw [List.count_cons] at hperm
    simp only [beq_iff_eq] at hperm
    omega
  cases p with
  | control n | data n | transmitter n => exact lists rfl
  | event n => exact absurd h nofun
  | dispatcher =>
    simp only [State.onOffer] at h
    obtain ⟨rest, hd⟩ := List.head?_eq_some_iff.mp h
    rw [State.count_heldSlots, State.count_heldSlots (State.producerMovesOn _ _ _ _)]
    simp only [State.producerMovesOn, hd, List.map_cons, List.count_cons, List.tail_cons, State.line, beq_iff_eq]
    omega
  | fence =>
    simp only [State.onOffer] at h
    obtain ⟨rest, hd⟩ := List.head?_eq_some_iff.mp h
    rw [State.count_heldSlots, State.count_heldSlots (State.producerMovesOn _ _ _ _)]
    simp only [State.producerMovesOn, hd, List.map_cons, List.count_cons, List.tail_cons, State.line, beq_iff_eq]
    omega

theorem State.onOffer_enterRecord (s : State) (slot : Slot) (r : Result) (p : Producer) :
    (s.enterRecord slot r).onOffer p = s.onOffer p := by
  obtain ⟨hd, hf, hl, -⟩ := s.enterRecord_frame slot r
  have hline (n : LineNo) : (s.enterRecord slot r).line n = s.line n := by simp only [State.line, hl]
  cases p <;> simp only [State.onOffer, hd, hf, hline]

/-- What an admission is for a record's completion. -/
theorem State.enterBacklog_of_offer {s : State} {p : Producer} {slot : Slot} {r : Result}
    (h : s.onOffer p = some (slot, r)) : s.enterBacklog p = (s.enterRecord slot r).producerMovesOn slot r p := by
  cases p with
  | event n => exact absurd h nofun
  | dispatcher | fence | control n | data n | transmitter n => simp only [State.enterBacklog, h]

theorem State.enterBacklog_of_none {s : State} {p : Producer} (h : s.onOffer p = none) (hp : ∀ n, p ≠ .event n) :
    s.enterBacklog p = s := by
  cases p with
  | event n => exact absurd rfl (hp n)
  | dispatcher | fence | control n | data n | transmitter n => simp only [State.enterBacklog, h]

/-- An admission frees the entry it reports and leaves the rest of the table. -/
theorem State.enterBacklog_entry {s : State} {p : Producer} {slot : Slot} {r : Result}
    (h : s.onOffer p = some (slot, r)) (i : Slot) :
    (s.enterBacklog p).entry i = if i = slot then none else s.entry i := by
  rw [State.enterBacklog_of_offer h, ← s.enterRecord_entry slot r i]
  simp [State.entry, State.producerMovesOn_table]

theorem State.PlacesOk.count_enterBacklog {s : State} {p : Producer} {slot : Slot} {r : Result}
    (h : s.onOffer p = some (slot, r)) (i : Slot) :
    s.heldSlots.count i = (s.enterBacklog p).heldSlots.count i + if slot = i then 1 else 0 := by
  have hoff := (s.onOffer_enterRecord slot r p).trans h
  obtain ⟨hd, hf, hl, hfetch, hfences, -⟩ := s.enterRecord_frame slot r
  rw [State.enterBacklog_of_offer h, ← (s.enterRecord slot r).count_producerMovesOn hoff i]
  exact (State.count_heldSlots_congr i (by rw [hfetch]) hd hf hfences fun n => by simp [State.line]).symm

/-- The entry whose completion is on offer is in use. -/
theorem State.PlacesOk.entry_of_offer {s : State} (hs : s.PlacesOk) {p : Producer} {slot : Slot} {r : Result}
    (h : s.onOffer p = some (slot, r)) : (s.entry slot).isSome = true := by
  have hc := State.PlacesOk.count_enterBacklog h slot
  rw [hs slot] at hc
  by_contra hn
  simp [hn] at hc

theorem State.PlacesOk.enterBacklog {s : State} (hs : s.PlacesOk) (p : Producer) : (s.enterBacklog p).PlacesOk := by
  cases h : s.onOffer p with
  | some x =>
    obtain ⟨slot, r⟩ := x
    intro i
    have hc := State.PlacesOk.count_enterBacklog h i
    have hin := hs.entry_of_offer h
    rw [hs i] at hc
    rw [State.enterBacklog_entry h]
    by_cases hi : i = slot
    · subst hi
      simp [hin] at hc ⊢
      omega
    · simp only [hi, Ne.symm hi, if_false, Nat.add_zero] at hc ⊢
      exact hc.symm
  | none =>
    by_cases hp : ∃ n, p = .event n
    · obtain ⟨n, rfl⟩ := hp
      refine hs.congr rfl rfl rfl rfl (fun _ => rfl) fun k => ?_
      change ((s.setLine n { s.line n with event := { (s.line n).event with queued := true } }).line k).heldSlots = _
      rw [State.line_setLine]
      split
      · next hk => rw [hk]; rfl
      · rfl
    · rw [State.enterBacklog_of_none h (by simpa using hp)]
      exact hs

end Sys2Proof.Machine

/-! PROOFS of O10, continued: what dispatch, a fence and each effect of a command do to the places of an entry. -/

namespace Sys2Proof.Machine

/-! ### Dispatch puts the fetched record's entry into exactly one place -/

theorem Line.joinControl_heldSlots (l : Line) (slot : Slot) (c : LineCommand) :
    (l.joinControl slot c).heldSlots.Perm (slot :: l.heldSlots) := by
  have hlist : memberSlots (l.joinControl slot c).control = memberSlots l.control ++ [slot] := by
    simp [Line.joinControl, memberSlots]
  simp only [Line.heldSlots, hlist, List.append_assoc]
  exact List.perm_middle

theorem Line.joinSends_heldSlots (l : Line) (slot : Slot) (b : SendBody) :
    (l.joinSends slot b).heldSlots.Perm (slot :: l.heldSlots) := by
  have hlist : memberSlots (l.joinSends slot b).tx.list = memberSlots l.tx.list ++ [slot] := by
    simp [Line.joinSends, memberSlots]
  have held : (l.joinSends slot b).heldSlots = memberSlots l.control ++ memberSlots l.filler.list ++
      memberSlots (l.joinSends slot b).tx.list ++ memberSlots l.poll.list := rfl
  rw [held, hlist, ← List.append_assoc, List.append_assoc _ [slot]]
  exact List.perm_middle

theorem Line.joinPolls_heldSlots (l : Line) (slot : Slot) (w : PollWork) :
    (l.joinPolls slot w).heldSlots.Perm (slot :: l.heldSlots) := by
  have hlist : memberSlots (l.joinPolls slot w).poll.list = memberSlots l.poll.list ++ [slot] := by
    simp [Line.joinPolls, memberSlots]
  simp only [Line.heldSlots, hlist]
  rw [← List.append_assoc]
  exact List.perm_append_singleton _ _

theorem Line.joinBuffers_heldSlots (l : Line) (slot : Slot) (b : BufferBody) :
    (l.joinBuffers slot b).heldSlots.Perm (slot :: l.heldSlots) := by
  obtain ⟨-, htx, hpoll, hcontrol, -⟩ := l.joinBuffers_frame slot b
  have hlist : memberSlots (l.joinBuffers slot b).filler.list = memberSlots l.filler.list ++ [slot] := by
    unfold Line.joinBuffers
    split
    · next h => simp [List.isEmpty_iff.mp h, memberSlots]
    · simp [memberSlots]
  simp only [Line.heldSlots, hlist, htx, hpoll, hcontrol]
  simp only [List.append_assoc, List.singleton_append]
  rw [← List.append_assoc, ← List.append_assoc (memberSlots l.control)]
  exact List.perm_middle

/-- A record joins a list of a line. -/
theorem State.count_heldSlots_joined (s : State) (n : LineNo) {l : Line} {slot : Slot}
    (h : l.heldSlots.Perm (slot :: (s.line n).heldSlots)) (i : Slot) :
    (s.setLine n l).heldSlots.count i = s.heldSlots.count i + if slot = i then 1 else 0 := by
  have hset := s.count_heldSlots_setLine n l i
  have hcount := h.count_eq i
  rw [List.count_cons] at hcount
  simp only [beq_iff_eq] at hcount
  omega

theorem State.count_heldSlots_completeAtOnce (s : State) (slot : Slot) (st : Status) (i : Slot) :
    (s.completeAtOnce slot st).heldSlots.count i = s.heldSlots.count i + if slot = i then 1 else 0 := by
  rw [State.count_heldSlots, State.count_heldSlots s]
  simp only [State.completeAtOnce, List.map_append, List.count_append, List.map_cons, List.map_nil, List.count_cons,
    List.count_nil, beq_iff_eq, State.line]
  omega

/-- A fence slot that was empty is filled. -/
theorem sum_fences_set (fences : Vector (Option Fence) 4) (q : SqNo) (f : Option Fence) (i : Slot) :
    ∑ p : SqNo, ((fences.set q f)[p].map Fence.slot).toList.count i + (fences[q].map Fence.slot).toList.count i =
      ∑ p : SqNo, (fences[p].map Fence.slot).toList.count i + (f.map Fence.slot).toList.count i := by
  have h := sum_change (fun p : SqNo => (fences[p].map Fence.slot).toList.count i)
    (fun p : SqNo => ((fences.set q f)[p].map Fence.slot).toList.count i) q
    fun p hp => by simp [Fin.val_ne_of_ne (Ne.symm hp)]
  simpa using h

theorem State.count_heldSlots_takeFence (s : State) (q : SqNo) (slot : Slot) (free : s.fences[q] = none) (i : Slot) :
    (s.takeFence q slot).heldSlots.count i = s.heldSlots.count i + if slot = i then 1 else 0 := by
  have hsum := sum_fences_set s.fences q
    (some { slot, waitSet := (s.slotsOf q).erase slot, count := ((s.slotsOf q).erase slot).length }) i
  rw [free] at hsum
  rw [State.count_heldSlots, State.count_heldSlots s]
  simp only [State.takeFence, State.line]
  simp only [Option.map_none, Option.map_some, Option.toList_none, Option.toList_some, List.count_nil,
    List.count_singleton, beq_iff_eq] at hsum
  linarith only [hsum]

theorem State.count_heldSlots_route (s : State) (q : SqNo) (slot : Slot) (n : LineNo) (b : Body)
    (free : s.fences[q] = none) (i : Slot) :
    (s.route q slot n b).heldSlots.count i = s.heldSlots.count i + if slot = i then 1 else 0 := by
  cases b with
  | fence => exact s.count_heldSlots_takeFence q slot free i
  | command c => exact s.count_heldSlots_joined n (Line.joinControl_heldSlots _ _ _) i
  | send w =>
    simp only [State.route]
    split
    · exact s.count_heldSlots_completeAtOnce _ _ _
    · split
      · exact s.count_heldSlots_joined n (Line.joinPolls_heldSlots _ _ _) i
      · exact s.count_heldSlots_joined n (Line.joinSends_heldSlots _ _ _) i
  | buffer w =>
    simp only [State.route]
    split
    · exact s.count_heldSlots_completeAtOnce _ _ _
    · exact s.count_heldSlots_joined n (Line.joinBuffers_heldSlots _ _ _) i
  | poll w =>
    simp only [State.route]
    split
    · exact s.count_heldSlots_completeAtOnce _ _ _
    · exact s.count_heldSlots_joined n (Line.joinPolls_heldSlots _ _ _) i

theorem State.route_table (s : State) (q : SqNo) (slot : Slot) (n : LineNo) (b : Body) :
    (s.route q slot n b).table = s.table := by
  cases b with
  | fence | command => rfl
  | send | buffer | poll => simp only [State.route]; split_ifs <;> rfl

theorem State.count_heldSlots_dispatch (s : State) (q : SqNo) (slot : Slot) (bytes : List Byte)
    (free : s.fences[q] = none) (i : Slot) :
    (s.dispatch q slot bytes).heldSlots.count i = s.heldSlots.count i + if slot = i then 1 else 0 := by
  have named (e : Option Entry) : (s.setEntry slot e).heldSlots.count i = s.heldSlots.count i :=
    State.count_heldSlots_congr i rfl rfl rfl (fun _ => rfl) fun _ => rfl
  unfold State.dispatch
  split
  · rw [State.count_heldSlots_completeAtOnce, named]
  · rw [State.count_heldSlots_route _ _ _ _ _ (by exact free), named]

theorem State.dispatch_entry_isSome (s : State) (q : SqNo) (slot : Slot) (bytes : List Byte) (i : Slot) :
    ((s.dispatch q slot bytes).entry i).isSome = (s.entry i).isSome := by
  have named (f : Entry → Entry) : ((s.setEntry slot ((s.entry slot).map f)).entry i).isSome = (s.entry i).isSome := by
    by_cases hi : slot = i
    · subst hi
      simp [State.setEntry, State.entry]
    · simp [State.setEntry, State.entry, Fin.val_ne_of_ne hi]
  unfold State.dispatch
  split
  · exact named _
  · simp only [State.entry, State.route_table]
    exact named _

/-! ### Each effect on the places -/

theorem State.PlacesOk.settle {s : State} (h : s.PlacesOk) (ps : List Producer) (k : Nat) :
    (State.settle ps k s).PlacesOk :=
  State.settle_induction ps (P := State.PlacesOk) (fun _ _ h => h.congr rfl rfl rfl rfl (fun _ => rfl) fun _ => rfl)
    (fun _ p h _ _ _ _ => h.enterBacklog p) (fun _ _ h _ _ _ => h.congr rfl rfl rfl rfl (fun _ => rfl) fun _ => rfl) k h

theorem State.PlacesOk.not_held {s : State} (h : s.PlacesOk) {i : Slot} (free : s.entry i = none) :
    s.heldSlots.count i = 0 := by
  simpa [free] using h i

theorem State.PlacesOk.not_reserved {s : State} (h : s.PlacesOk) (empty : ∀ i, s.entry i = none) :
    s.fetcher.reserved = none := by
  rw [Option.eq_none_iff_forall_ne_some]
  intro i hi
  have hcount := h.not_held (empty i)
  rw [State.count_heldSlots, hi] at hcount
  simp at hcount

theorem State.enterFaulted_placesOk (s : State) (code : FaultCode) (source : FaultSource) :
    (s.enterFaulted code source).PlacesOk := by
  refine .of_empty (fun i => by simp [State.enterFaulted, State.updateNotify, State.entry]) fun i => ?_
  rw [State.count_heldSlots]
  simp [State.enterFaulted, State.updateNotify, Fetcher.reserved, State.line, Line.shutDown, Line.heldSlots, Line.rest,
    Filler.rest, Transmitter.rest, PollEngine.rest, memberSlots]

theorem State.takeReset_placesOk (s : State) (cause : ResetCause) (qbase : Addr) (high : Bool) :
    (s.takeReset cause qbase high).PlacesOk := by
  refine .of_empty (fun i => by simp [State.takeReset, State.reset, State.entry]) fun i => ?_
  rw [State.count_heldSlots]
  simp [State.takeReset, State.reset, Fetcher.reserved, Fetcher.rest, State.line, Line.heldSlots, Line.rest, Filler.rest,
    Transmitter.rest, PollEngine.rest, memberSlots]

theorem Line.dropUnusedEvents_heldSlots (block : Option Block) (l : Line) :
    (l.dropUnusedEvents block).heldSlots = l.heldSlots := by
  unfold Line.dropUnusedEvents; split <;> rfl

/-- The table is empty and holds nothing anywhere before a block is loaded. -/
theorem State.loadBlock_placesOk {s : State} (h : s.PlacesOk) (empty : ∀ i, s.entry i = none) (b : Block) :
    (s.loadBlock b).PlacesOk := by
  refine .of_empty empty fun i => ?_
  have held := h.not_held (empty i)
  rw [State.count_heldSlots] at held ⊢
  simp only [Nat.add_eq_zero_iff] at held
  obtain ⟨⟨⟨⟨-, hdispatched⟩, hdone⟩, -⟩, hlines⟩ := held
  have hline (n : LineNo) : ((s.loadBlock b).line n).heldSlots = (s.line n).heldSlots := by
    simp [State.loadBlock, State.updateNotify, State.line, Line.dropUnusedEvents_heldSlots]
  simp only [hline, hlines]
  simp [State.loadBlock, State.updateNotify, Fetcher.reserved, Fetcher.rest, hdispatched, hdone]

theorem State.PlacesOk.descriptorReadOver {s : State} (h : s.PlacesOk) (empty : ∀ i, s.entry i = none) (k : Fin 4)
    (e : ReadEnd Record) : (s.descriptorReadOver k e).PlacesOk := by
  have hres := h.not_reserved empty
  have idle : State.PlacesOk { s with fetcher := { s.fetcher with outstanding := none } } :=
    h.congr rfl hres.symm rfl rfl (fun _ => rfl) fun _ => rfl
  unfold State.descriptorReadOver
  dsimp only
  split
  · exact h.congr rfl hres.symm rfl rfl (fun _ => rfl) fun _ => rfl
  · split
    · exact State.enterFaulted_placesOk _ _ _
    · split
      · exact h.congr rfl hres.symm rfl rfl (fun _ => rfl) fun _ => rfl
      · split
        · exact State.loadBlock_placesOk idle empty _
        · exact State.enterFaulted_placesOk _ _ _

/-- A free entry is reserved for a record fetch. -/
theorem State.PlacesOk.fetchIssued {s t : State} (h : s.PlacesOk) {slot : Slot} {e : Entry}
    (idle : s.fetcher.outstanding = none) (free : s.entry slot = none) (table : t.table = s.table.set slot (some e))
    (reserved : t.fetcher.reserved = some slot) (dispatched : t.dispatched = s.dispatched)
    (fencesDone : t.fencesDone = s.fencesDone) (fences : t.fences = s.fences) (lines : t.lines = s.lines) :
    t.PlacesOk := by
  intro i
  have hi := h i
  have hres : s.fetcher.reserved = none := by simp [Fetcher.reserved, idle]
  have hline (n : LineNo) : t.line n = s.line n := by simp only [State.line, lines]
  have hentry : t.entry i = if slot = i then some e else s.entry i := by
    simp only [State.entry, table, Fin.getElem_fin, Vector.getElem_set, Fin.ext_iff]
  rw [State.count_heldSlots, hres, Option.toList_none, List.count_nil] at hi
  rw [State.count_heldSlots, reserved, hentry, Option.toList_some, List.count_singleton]
  simp only [dispatched, fencesDone, fences, hline, beq_iff_eq]
  by_cases heq : slot = i
  · subst heq
    rw [free] at hi
    simp only [Option.isSome_none, Option.isSome_some, Bool.false_eq_true, if_false, if_true] at hi ⊢
    linarith only [hi]
  · rw [if_neg heq, if_neg heq]
    exact hi

/-- The reserved entry of a fetch that ended is the record's, and dispatch gives it its place. -/
theorem State.PlacesOk.dispatched {s u : State} (h : s.PlacesOk) {q : SqNo} {slot : Slot}
    (reserved : s.fetcher.reserved = some slot) (done : u.fetcher.reserved = none) (free : u.fences[q] = none)
    (table : u.table = s.table) (dispatched : u.dispatched = s.dispatched) (fencesDone : u.fencesDone = s.fencesDone)
    (fences : u.fences = s.fences) (lines : u.lines = s.lines) (bytes : List Byte) : (u.dispatch q slot bytes).PlacesOk := by
  intro i
  have hs := h i
  have fetched : u.heldSlots.count i + (if slot = i then 1 else 0) = s.heldSlots.count i := by
    rw [State.count_heldSlots, State.count_heldSlots s, reserved, done]
    simp only [dispatched, fencesDone, fences, State.line, lines, Option.toList_none, List.count_nil,
      Option.toList_some, List.count_singleton, beq_iff_eq]
    ring
  have entry : s.entry i = u.entry i := by simp only [State.entry, table]
  rw [State.count_heldSlots_dispatch u q slot bytes free, State.dispatch_entry_isSome, fetched, ← entry]
  exact hs

theorem State.PlacesOk.fetchDispatched {s : State} (h : s.PlacesOk) {q : SqNo} {slot : Slot}
    (reserved : s.fetcher.reserved = some slot) (free : s.fences[q] = none) (bytes : List Byte) :
    (State.giveUpCredit (State.dispatch (State.fetchAdvanced
      { s.transferOver with fetcher := { s.fetcher with outstanding := none } } q) q slot bytes) q).PlacesOk := by
  have hd := State.PlacesOk.dispatched h (u := State.fetchAdvanced
    { s.transferOver with fetcher := { s.fetcher with outstanding := none } } q) reserved rfl free rfl rfl rfl rfl rfl bytes
  obtain ⟨credit, hcredit⟩ := State.giveUpCredit_eq (State.dispatch (State.fetchAdvanced
    { s.transferOver with fetcher := { s.fetcher with outstanding := none } } q) q slot bytes) q
  rw [hcredit]
  exact hd.congr rfl rfl rfl rfl (fun _ => rfl) fun _ => rfl

theorem State.PlacesOk.recordFetched {s : State} (h : s.PlacesOk) {q : SqNo} {slot : Slot}
    (reserved : s.fetcher.reserved = some slot) (free : s.fences[q] = none) (bytes : List Byte) :
    (State.recordFetched { s.transferOver with fetcher := { s.fetcher with outstanding := none } } q slot bytes).PlacesOk
    := by
  rw [State.recordFetched_eq]
  exact State.PlacesOk.settle (h.fetchDispatched reserved free bytes) _ _

/-- A FENCE's entry goes from the fence logic's fences to its composed completions. -/
theorem State.PlacesOk.fenceEnds {s : State} (h : s.PlacesOk) {q : SqNo} {f : Fence} (held : s.fences[q] = some f)
    (r : Result) :
    State.PlacesOk { s with fences := s.fences.set q none, fencesDone := s.fencesDone ++ [(f.slot, r)] } := by
  intro i
  have hsum := sum_fences_set s.fences q none i
  have hi := h i
  rw [State.count_heldSlots] at hi ⊢
  simp only [held, Option.map_some, Option.map_none, Option.toList_some, Option.toList_none, List.count_nil] at hsum
  simp only [List.map_append, List.map_cons, List.map_nil, List.count_append]
  refine Eq.trans ?_ hi
  simp only [State.line]
  linarith only [hsum]

end Sys2Proof.Machine

/-! PROOFS of O10, the end: every effect of a command keeps the request table's invariant. -/

namespace Sys2Proof.Machine

/-! ### What the offers of a moment keep of the table and of the fences -/

theorem State.enterBacklog_fence_none {s : State} {q : SqNo} (h : s.fences[q] = none) (p : Producer) :
    (s.enterBacklog p).fences[q] = none := by
  cases hp : s.onOffer p with
  | some x =>
    obtain ⟨-, -, -, -, hfences, -⟩ := s.enterRecord_frame x.1 x.2
    obtain ⟨-, hmoved, -⟩ := (s.enterRecord x.1 x.2).producerMovesOn_frame x.1 x.2 p
    rw [State.enterBacklog_of_offer (slot := x.1) (r := x.2) hp, hmoved]
    have := hfences q
    rwa [h, Option.map_none, Option.map_eq_none_iff] at this
  | none =>
    by_cases he : ∃ n, p = .event n
    · obtain ⟨n, rfl⟩ := he
      exact h
    · rw [State.enterBacklog_of_none hp (by simpa using he)]
      exact h

theorem State.settle_fence_none {s : State} {q : SqNo} (h : s.fences[q] = none) (ps : List Producer) (k : Nat) :
    (State.settle ps k s).fences[q] = none :=
  State.settle_induction ps (P := fun u => u.fences[q] = none) (fun _ _ h => h)
    (fun _ p h _ _ _ _ => State.enterBacklog_fence_none h p) (fun _ _ h _ _ _ => h) k h

theorem State.entry_none_of_tableEmpty {s : State} (h : s.tableEmpty = true) (i : Slot) : s.entry i = none := by
  unfold State.tableEmpty at h
  rw [Vector.all_eq_true] at h
  simpa [State.entry] using h i i.isLt

theorem State.completionWritten_places (s : State) (q : CqNo) :
    (s.completionWritten q).dispatched = s.dispatched ∧ (s.completionWritten q).fencesDone = s.fencesDone ∧
    (s.completionWritten q).fences = s.fences := by
  unfold State.completionWritten
  dsimp only
  obtain ⟨c, pin, h, -⟩ := State.noteWritten_eq _ q _
  rw [h]
  exact ⟨rfl, rfl, rfl⟩

/-! ### The record fetch and its entry -/

section

variable {s : State} (h : s.TableInv)
include h

theorem State.TableInv.placesOk : s.PlacesOk := h.places

/-- A record fetch in flight is the fetcher's, and its entry is reserved. -/
theorem State.TableInv.reserved {t : Transfer} {q : SqNo} {slot : Slot} (inFlight : s.port.inFlight = some t)
    (kind : t.kind = .recordFetch q slot) : s.fetcher.reserved = some slot := by
  have hk : t.kind.reserved = some slot := by rw [kind]; rfl
  simp [Fetcher.reserved, h.fetching t slot inFlight hk, hk]

theorem State.TableInv.not_held {t : Transfer} {q : SqNo} {slot : Slot} (inFlight : s.port.inFlight = some t)
    (kind : t.kind = .recordFetch q slot) : s.fences[q] = none :=
  h.unheld t q slot (h.fetching t slot inFlight (by rw [kind]; rfl)) kind

/-- With a record being fetched the controller is neither STOPPED nor LOADING. -/
theorem State.TableInv.busy {i : Slot} (reserved : s.fetcher.reserved = some i) :
    ¬ (s.ctl.state = .stopped ∨ s.ctl.state = .loading) := by
  intro hs
  have := h.placesOk.not_reserved (h.idle hs)
  simp [reserved] at this

theorem State.TableInv.loading_empty {t : Transfer} {k : Fin 4} (inFlight : s.port.inFlight = some t)
    (kind : t.kind = .descriptorRead k) : ∀ i, s.entry i = none := by
  have hk : t.kind.descriptorIndex.isSome = true := by rw [kind]; rfl
  exact h.idle (.inr (h.controller.loading t (h.controller.reading t inFlight hk) hk))

end

/-! ### Each effect -/

theorem State.PlacesOk.effect {s t : State} (h : s.TableInv) (he : s.Effect t) : t.PlacesOk := by
  have places := h.placesOk
  have keeps {t : State} (table : t.table = s.table) (fetcher : t.fetcher.reserved = s.fetcher.reserved)
      (dispatched : t.dispatched = s.dispatched) (fencesDone : t.fencesDone = s.fencesDone)
      (fences : t.fences = s.fences) (lines : t.lines = s.lines) : t.PlacesOk :=
    places.congr table fetcher dispatched fencesDone (fun _ => by rw [fences]) fun _ => by simp only [State.line, lines]
  cases he with
  | quiet same =>
    exact keeps same.table (by rw [same.fetcher]) same.dispatched same.fencesDone same.fences same.lines
  | transferEnds | loadEnds | posted | released | portGranted => exact keeps rfl rfl rfl rfl rfl rfl
  | line n k reports inFlight _ kept _ =>
    have ported : (s.withPort reports inFlight).PlacesOk := keeps rfl rfl rfl rfl rfl rfl
    exact (ported.setLine n kept.heldSlots).settle _ _
  | query n p reports =>
    exact (places.setLine n (Line.progress_step (s.line n) p).toKept.heldSlots).congr rfl rfl rfl rfl (fun _ => rfl)
      fun _ => rfl
  | started state =>
    exact keeps rfl (places.not_reserved (h.idle (.inl state))).symm rfl rfl rfl rfl
  | stopped =>
    rw [State.drained_eq]
    refine State.PlacesOk.congr (State.PlacesOk.settle (s := { s with
        ctl := { s.ctl with state := .draining }, lines := s.lines.map Line.stop }) ?_ _ _) rfl rfl rfl rfl
      (fun _ => rfl) fun _ => rfl
    refine places.congr rfl rfl rfl rfl (fun _ => rfl) fun n => ?_
    simpa [State.line] using (s.lines[n].stop_step).toKept.heldSlots
  | reset => exact State.takeReset_placesOk _ _ _ _
  | descriptorRead u k e inFlight kind =>
    exact State.PlacesOk.descriptorReadOver (s := s.transferOver) (keeps rfl rfl rfl rfl rfl rfl)
      (h.loading_empty inFlight kind) k e
  | fetchIssued b slot q credit _ idle _ free _ => exact places.fetchIssued idle free rfl rfl rfl rfl rfl rfl
  | fetched u q slot bytes inFlight kind =>
    exact places.recordFetched (h.reserved inFlight kind) (h.not_held inFlight kind) bytes
  | fetchFailed | writeFailed => exact State.enterFaulted_placesOk _ _ _
  | fenceEnds q f held r =>
    exact State.PlacesOk.settle (State.PlacesOk.fenceEnds places held r) _ _
  | eventOffered n =>
    unfold State.offer
    split
    · exact places.enterBacklog _
    · exact keeps rfl rfl rfl rfl rfl rfl
  | granted p =>
    refine State.PlacesOk.settle (State.PlacesOk.enterBacklog ?_ p) _ _
    exact keeps rfl rfl rfl rfl rfl rfl
  | entryTaken b q e =>
    cases e with
    | completion => exact keeps rfl rfl rfl rfl rfl rfl
    | event cq n => exact (places.setLine n (l := (s.line n).captured) rfl).congr rfl rfl rfl rfl (fun _ => rfl) fun _ => rfl
  | written u q =>
    obtain ⟨-, -, hfetcher, -, hlines, htable, -⟩ := s.transferOver.completionWritten_frame q
    obtain ⟨hdispatched, hdone, hfences⟩ := s.transferOver.completionWritten_places q
    exact keeps htable (by rw [hfetcher]; rfl) hdispatched hdone hfences hlines
  | drained =>
    exact keeps (by rw [State.drained_eq]) (by rw [State.drained_eq]) (by rw [State.drained_eq])
      (by rw [State.drained_eq]) (by rw [State.drained_eq]) (by rw [State.drained_eq])

/-- The fetcher's transfer and the one at the port stay, or the latter ends. -/
theorem State.Effect.fetching {s t : State} (h : s.TableInv) (he : s.Effect t) (u : Transfer) (i : Slot)
    (hu : t.port.inFlight = some u) (hk : u.kind.reserved = some i) : t.fetcher.outstanding = some u := by
  have keeps {t : State} (port : t.port.inFlight = s.port.inFlight ∨ t.port.inFlight = none)
      (fetcher : t.fetcher.outstanding = s.fetcher.outstanding) (hu : t.port.inFlight = some u) :
      t.fetcher.outstanding = some u := by
    rw [fetcher]
    rcases port with port | port <;> rw [port] at hu
    · exact h.fetching u i hu hk
    · exact absurd hu nofun
  cases he with
  | quiet same => exact keeps (by rw [same.port]; exact .inl rfl) (by rw [same.fetcher]) hu
  | query | loadEnds | posted | released => exact keeps (.inl rfl) rfl hu
  | started state =>
    have hf := h.fetching u i hu hk
    exact absurd (.inl state) (h.busy (i := i) (by simp [Fetcher.reserved, hf, hk]))
  | line n k reports inFlight port =>
    exact keeps (by simpa [State.withPort] using port) (by simp [State.withPort]) hu
  | stopped => exact keeps (by rw [State.drained_eq]; simp) (by rw [State.drained_eq]; simp) hu
  | transferEnds | reset | fetchFailed | writeFailed => exact absurd hu nofun
  | descriptorRead v k e =>
    exfalso
    revert hu
    unfold State.descriptorReadOver
    dsimp only
    split
    · exact nofun
    · split
      · exact nofun
      · split
        · exact nofun
        · split <;> exact nofun
  | fetchIssued b slot q credit _ idle =>
    have := h.fetching u i hu hk
    simp [idle] at this
  | fetched v q slot bytes =>
    obtain ⟨-, -, -, -, hport, -⟩ := State.recordFetched_frame
      { s.transferOver with fetcher := { s.fetcher with outstanding := none } } q slot bytes
    rw [hport] at hu
    exact absurd hu nofun
  | fenceEnds | eventOffered | granted => exact keeps (by simp) (by simp) hu
  | entryTaken b q e =>
    obtain ⟨-, -, hfetcher, -, hport, -⟩ := s.takeEntry_frame b q e
    exact keeps (by rw [hport]; exact .inl rfl) (by rw [hfetcher]) hu
  | written v q =>
    obtain ⟨-, -, -, hport, -⟩ := s.transferOver.completionWritten_frame q
    rw [hport] at hu
    exact absurd hu nofun
  | drained => exact keeps (by rw [State.drained_eq]; exact .inl rfl) (by rw [State.drained_eq]) hu
  | portGranted v r next =>
    cases hu
    rcases State.nextGrant_cases next with hw | hf | ⟨-, -, hnone⟩
    · have := h.controller.writing u hw
      cases hkind : u.kind <;> simp_all [TransferKind.reserved, TransferKind.completionOf]
    · exact hf
    · simp [hnone] at hk

/-- The SQ of the record being fetched stays without a FENCE. -/
theorem State.Effect.unheld {s t : State} (h : s.TableInv) (he : s.Effect t) (u : Transfer) (q : SqNo) (i : Slot)
    (hu : t.fetcher.outstanding = some u) (hk : u.kind = .recordFetch q i) : t.fences[q] = none := by
  have keeps {t : State} (fetcher : t.fetcher.outstanding = s.fetcher.outstanding) (fences : t.fences = s.fences)
      (hu : t.fetcher.outstanding = some u) : t.fences[q] = none := by
    rw [fences]
    exact h.unheld u q i (fetcher ▸ hu) hk
  have settles (v : State) (ps : List Producer) (fetcher : v.fetcher.outstanding = s.fetcher.outstanding)
      (fences : s.fences[q] = none → v.fences[q] = none) (hu : (State.settle ps settleBound v).fetcher.outstanding = some u) :
      (State.settle ps settleBound v).fences[q] = none := by
    rw [State.settle_fetcher, fetcher] at hu
    exact State.settle_fence_none (fences (h.unheld u q i hu hk)) _ _
  cases he with
  | quiet same => exact keeps (by rw [same.fetcher]) same.fences hu
  | transferEnds | query | loadEnds | posted | released | portGranted => exact keeps rfl rfl hu
  | started => cases hu; exact absurd hk nofun
  | line => exact settles _ _ rfl id hu
  | stopped =>
    rw [State.drained_eq] at hu ⊢
    exact settles _ _ rfl id hu
  | reset | fetchFailed | writeFailed => exact absurd hu nofun
  | descriptorRead v k e =>
    revert hu
    unfold State.descriptorReadOver
    dsimp only
    split
    · exact nofun
    · split
      · exact nofun
      · split
        · intro hu
          cases hu
          exact absurd hk nofun
        · split <;> exact nofun
  | fetchIssued b slot p credit _ idle _ _ eligible =>
    cases hu
    cases hk
    unfold State.eligible at eligible
    simp only [Bool.and_eq_true] at eligible
    simpa using eligible.2
  | fetched v p slot bytes =>
    obtain ⟨-, -, -, -, -, credit, hfetcher⟩ := State.recordFetched_frame
      { s.transferOver with fetcher := { s.fetcher with outstanding := none } } p slot bytes
    rw [hfetcher] at hu
    exact absurd hu nofun
  | fenceEnds p f held r =>
    refine settles _ _ rfl (fun hq => ?_) hu
    by_cases hp : p = q
    · subst hp; simp
    · simpa [Fin.val_ne_of_ne hp] using hq
  | eventOffered n =>
    rw [State.offer_fetcher] at hu
    have := h.unheld u q i hu hk
    unfold State.offer
    split
    · exact State.enterBacklog_fence_none this _
    · exact this
  | granted p =>
    rw [State.settle_fetcher, State.enterBacklog_fetcher] at hu
    refine State.settle_fence_none (State.enterBacklog_fence_none ?_ p) _ _
    exact h.unheld u q i hu hk
  | entryTaken b p e =>
    obtain ⟨-, -, hfetcher, -⟩ := s.takeEntry_frame b p e
    refine keeps (by rw [hfetcher]) ?_ hu
    cases e <;> rfl
  | written v p =>
    obtain ⟨-, -, hfetcher, -⟩ := s.transferOver.completionWritten_frame p
    obtain ⟨-, -, hfences⟩ := s.transferOver.completionWritten_places p
    exact keeps (by rw [hfetcher]; rfl) hfences hu
  | drained => exact keeps (by rw [State.drained_eq]) (by rw [State.drained_eq]) hu

theorem State.drained_empty {s : State} (h : s.ctl.state = .stopped ∨ s.ctl.state = .loading → ∀ i, s.entry i = none)
    (ht : s.drained.ctl.state = .stopped ∨ s.drained.ctl.state = .loading) (i : Slot) : s.drained.entry i = none := by
  rcases s.drained_cases with hd | ⟨-, hempty, -, hd⟩ <;> rw [hd] at ht ⊢
  · exact h ht i
  · exact State.entry_none_of_tableEmpty hempty i

/-- The table stays empty in STOPPED and LOADING, and is empty as the controller passes to them (11 R181). -/
theorem State.Effect.idle {s t : State} (h : s.TableInv) (he : s.Effect t)
    (ht : t.ctl.state = .stopped ∨ t.ctl.state = .loading) (i : Slot) : t.entry i = none := by
  have keeps {t : State} (state : t.ctl.state = s.ctl.state) (table : t.table = s.table)
      (ht : t.ctl.state = .stopped ∨ t.ctl.state = .loading) : t.entry i = none := by
    rw [state] at ht
    simpa only [State.entry, table] using h.idle ht i
  have empty (u : State) (c : FaultCode) (x : FaultSource) : (u.enterFaulted c x).entry i = none := by
    simp [State.enterFaulted, State.updateNotify, State.entry]
  cases he with
  | quiet same => exact keeps same.state same.table ht
  | transferEnds | query | loadEnds | posted | released | portGranted => exact keeps rfl rfl ht
  | started state => exact h.idle (.inl state) i
  | line n k reports inFlight =>
    rw [State.updateLine_ctl] at ht
    exact State.settle_entry_none _ _ _ _ (h.idle ht i)
  | stopped state => exact State.drained_empty (by simp) ht i
  | reset => simp [State.takeReset, State.reset, State.entry]
  | descriptorRead u k e inFlight kind =>
    have none := h.loading_empty inFlight kind i
    unfold State.descriptorReadOver
    dsimp only
    split
    · exact none
    · split
      · exact empty _ _ _
      · split
        · exact none
        · split
          · exact none
          · exact empty _ _ _
  | fetchIssued b slot q credit state =>
    have ht : s.ctl.state = .stopped ∨ s.ctl.state = .loading := ht
    simp [state] at ht
  | fetched u q slot bytes inFlight kind =>
    have hctl := (State.recordFetched_frame
      { s.transferOver with fetcher := { s.fetcher with outstanding := none } } q slot bytes).1
    rw [hctl] at ht
    exact absurd ht (h.busy (h.reserved inFlight kind))
  | fetchFailed | writeFailed => exact empty _ _ _
  | fenceEnds =>
    rw [State.settle_ctl] at ht
    exact State.settle_entry_none _ _ _ _ (h.idle ht i)
  | eventOffered n =>
    rw [State.offer_ctl] at ht
    have := h.idle ht i
    unfold State.offer
    split
    · exact State.enterBacklog_entry_none _ _ _ this
    · exact this
  | granted p =>
    rw [State.settle_ctl, State.enterBacklog_ctl] at ht
    exact State.settle_entry_none _ _ _ _ (State.enterBacklog_entry_none _ p _ (h.idle ht i))
  | entryTaken b p e =>
    refine keeps (by rw [(s.takeEntry_frame b p e).1]) ?_ ht
    cases e <;> rfl
  | written v p =>
    obtain ⟨hctl, -, -, -, -, htable, -⟩ := s.transferOver.completionWritten_frame p
    exact keeps (by rw [hctl]; rfl) htable ht
  | drained => exact State.drained_empty (fun hs => h.idle hs) ht i

theorem State.TableInv.effect (s t : State) (h : s.TableInv) (he : s.Effect t) : t.TableInv where
  controller := State.ControllerInv.effect s t h.controller he
  places := State.PlacesOk.effect h he
  fetching := he.fetching h
  unheld := he.unheld h
  idle := he.idle h

/-- Settles O10: every effect of a command keeps each entry in use in exactly one place. -/
theorem requestTableKept : Obligations.RequestTableKept :=
  kept_by_step State.TableInv.effect

end Sys2Proof.Machine

/-! PROOFS of O8: the completion rings' occupancy, the write outstanding, and the event entries of the backlog. -/

namespace Sys2Proof.Machine

/-! ### The oldest entry for a CQ -/

/-- The oldest entry for a CQ splits the backlog; it is the one that `removeOldest` removes and `replaceOldest` replaces. -/
theorem State.oldestFor_eq_some {s : State} {q : CqNo} {e : BacklogEntry} (h : s.oldestFor q = some e) :
    ∃ before after, s.backlog.entries = before ++ e :: after ∧ e.cq = q ∧ (∀ x ∈ before, x.cq ≠ q) ∧
      removeOldest q s.backlog.entries = before ++ after ∧
      ∀ new, replaceOldest q new s.backlog.entries = before ++ new :: after := by
  obtain ⟨hq, before, after, hsplit, hother⟩ := List.find?_eq_some_iff_append.mp h
  have hq : e.cq = q := by simpa using hq
  have hbefore : ∀ x ∈ before, x.cq ≠ q := by simpa using hother
  clear hother
  clear h
  refine ⟨before, after, hsplit, hq, hbefore, ?_, fun new => ?_⟩ <;> rw [hsplit] <;> clear hsplit
  · induction before with
    | nil => simp [removeOldest, hq]
    | cons x xs ih =>
      simp only [List.cons_append, removeOldest, if_neg (hbefore x (by simp)), List.cons.injEq, true_and]
      exact ih fun y hy => hbefore y (by simp [hy])
  · induction before with
    | nil => simp [replaceOldest, hq]
    | cons x xs ih =>
      simp only [List.cons_append, replaceOldest, if_neg (hbefore x (by simp)), List.cons.injEq, true_and]
      exact ih fun y hy => hbefore y (by simp [hy])

/-- Entries behind the oldest of a CQ leave it the oldest. -/
theorem State.writingFrom_append {s t : State} {q : CqNo} {more : List BacklogEntry} (h : s.writingFrom q)
    (entries : t.backlog.entries = s.backlog.entries ++ more) : t.writingFrom q := by
  obtain ⟨urgent, c, hc⟩ := h
  refine ⟨urgent, c, ?_⟩
  unfold State.oldestFor at *
  rw [entries, List.find?_append, hc]
  rfl

/-! ### Event entries: those of a line in the backlog, its flag, and its offer (01 R19) -/

/-- The entry is the event entry of line `n`. -/
def BacklogEntry.eventOf (n : LineNo) : BacklogEntry → Bool
  | .event _ m => m == n
  | .completion .. => false

theorem State.eventEntries_eq (s : State) (n : LineNo) :
    s.eventEntries n = s.backlog.entries.countP (BacklogEntry.eventOf n) := by
  unfold State.eventEntries
  congr 1

/-- A line has one event entry in the backlog if its flag is set and none otherwise, and then waits with none. -/
structure State.EventsOk (s : State) : Prop where
  queued : ∀ n : LineNo, s.eventEntries n = if (s.line n).event.queued then 1 else 0
  oneOffer : ∀ n : LineNo, s.backlog.waiting.count (.event n) ≤ if (s.line n).event.queued then 0 else 1

/-- `t` is `s` with completions behind the backlog's entries; no line's event entry, flag or offer is another. -/
structure State.AddsCompletions (s t : State) : Prop where
  entries : ∃ more, t.backlog.entries = s.backlog.entries ++ more ∧ ∀ n, more.countP (BacklogEntry.eventOf n) = 0
  queued : ∀ n, (t.line n).event.queued = (s.line n).event.queued
  waiting : ∀ n, t.backlog.waiting.count (.event n) = s.backlog.waiting.count (.event n)

theorem State.AddsCompletions.of_same {s t : State} (backlog : t.backlog = s.backlog)
    (queued : ∀ n, (t.line n).event.queued = (s.line n).event.queued) : s.AddsCompletions t :=
  ⟨⟨[], by simp [backlog]⟩, queued, fun _ => by rw [backlog]⟩

theorem State.AddsCompletions.trans {s t u : State} (h : s.AddsCompletions t) (k : t.AddsCompletions u) :
    s.AddsCompletions u := by
  obtain ⟨⟨xs, hxs, hx⟩, hq, hw⟩ := h
  obtain ⟨⟨ys, hys, hy⟩, kq, kw⟩ := k
  exact ⟨⟨xs ++ ys, by rw [hys, hxs, List.append_assoc], fun n => by rw [List.countP_append, hx, hy]⟩,
    fun n => (kq n).trans (hq n), fun n => (kw n).trans (hw n)⟩

theorem State.EventsOk.adds {s t : State} (h : s.EventsOk) (k : s.AddsCompletions t) : t.EventsOk := by
  obtain ⟨⟨more, hmore, hnone⟩, hq, hw⟩ := k
  refine ⟨fun n => ?_, fun n => ?_⟩
  · rw [hq, ← h.queued, State.eventEntries_eq, State.eventEntries_eq, hmore, List.countP_append, hnone, Nat.add_zero]
  · rw [hq, hw]
    exact h.oneOffer n

theorem Line.movedOn_queued (l : Line) (slot : Slot) (r : Result) (p : Producer) :
    (l.movedOn slot r p).event.queued = l.event.queued := by
  cases p with
  | dispatcher | fence | event | control => rfl
  | transmitter n => exact (Line.recordEntered_step { l with tx := { l.tx with list := l.tx.list.tail } } slot).queued
  | data n =>
    simp only [Line.movedOn]
    split
    · exact (Line.recordEntered_step
        { l with poll := { l.poll with list := l.poll.list.tail, attempt := .none } } slot).queued
    · obtain ⟨-, -, -, -, -, -, hqueued, -⟩ := l.nextBuffer_frame
      exact (l.bufferEntered_step slot r).queued.trans hqueued

theorem State.setLine_queued (s : State) (n : LineNo) {l : Line} (h : l.event.queued = (s.line n).event.queued)
    (k : LineNo) : ((s.setLine n l).line k).event.queued = (s.line k).event.queued := by
  rw [State.line_setLine]
  split
  · next hk => rw [h, hk]
  · rfl

theorem State.producerMovesOn_queued (s : State) (slot : Slot) (r : Result) (p : Producer) (k : LineNo) :
    ((s.producerMovesOn slot r p).line k).event.queued = (s.line k).event.queued := by
  cases hp : p.lineOf with
  | some n =>
    rw [State.producerMovesOn_line s slot r hp]
    exact s.setLine_queued n (Line.movedOn_queued _ _ _ _) k
  | none =>
    cases p with
    | dispatcher | fence | event => rfl
    | control | data | transmitter => exact absurd hp nofun

theorem State.enterRecord_adds (s : State) (slot : Slot) (r : Result) : s.AddsCompletions (s.enterRecord slot r) := by
  unfold State.enterRecord
  split
  · exact .of_same rfl fun _ => rfl
  · exact ⟨⟨_, rfl, fun n => by simp [BacklogEntry.eventOf]⟩, fun _ => rfl, fun _ => rfl⟩

theorem State.enterBacklog_adds (s : State) {p : Producer} (hp : ∀ n, p ≠ .event n) : s.AddsCompletions (s.enterBacklog p) := by
  cases h : s.onOffer p with
  | none =>
    rw [State.enterBacklog_of_none h hp]
    exact .of_same rfl fun _ => rfl
  | some x =>
    rw [State.enterBacklog_of_offer (slot := x.1) (r := x.2) h]
    refine (s.enterRecord_adds x.1 x.2).trans (.of_same ?_ ?_)
    · exact State.producerMovesOn_backlog _ _ _ _
    · exact State.producerMovesOn_queued _ _ _ _

/-- The offers of a moment are completions. -/
theorem State.settle_adds (s : State) (ps : List Producer) (k : Nat) : s.AddsCompletions (State.settle ps k s) := by
  have records (u : State) (p : Producer) (hp : (u.onOffer p).isSome = true) (n : LineNo) : p ≠ .event n := by
    rintro rfl
    exact absurd hp nofun
  refine State.settle_induction ps (P := fun u => s.AddsCompletions u) (fun u j h => h.trans ?_)
    (fun u p h _ hp _ _ => h.trans (u.enterBacklog_adds (records u p hp)))
    (fun u p h _ hp _ => h.trans ?_) k (.of_same rfl fun _ => rfl)
  · exact .of_same rfl fun _ => rfl
  · refine ⟨⟨[], by simp [State.withWaiting]⟩, fun _ => rfl, fun n => ?_⟩
    simp [State.withWaiting, List.count_append, records u p hp n]

theorem State.AddsCompletions.settle {s t : State} (h : s.AddsCompletions t) (ps : List Producer) (k : Nat) :
    s.AddsCompletions (State.settle ps k t) :=
  h.trans (t.settle_adds ps k)

/-! ### The write outstanding and the occupancies (08 R147 to R149) -/

/-- What of the part the rings' invariant looks at stays, but for completions that enter the backlog. -/
theorem State.RingsInv.adds {s t : State} (h : s.RingsInv) (controller : t.ControllerInv) (k : s.AddsCompletions t)
    (active : t.ctl.active = s.ctl.active) (block : t.block = s.block) (writer : t.writer = s.writer)
    (fetcher : ∀ u, t.fetcher.outstanding = some u → u.kind.completionOf = none)
    (inFlight : t.port.inFlight = s.port.inFlight ∨ t.port.inFlight = none) : t.RingsInv where
  controller := controller
  occupancy := by rw [block, writer]; exact h.occupancy
  writer u hu := by
    obtain ⟨hactive, hwrite⟩ := h.writer u (writer ▸ hu)
    obtain ⟨more, hmore, -⟩ := k.entries
    refine ⟨by rw [active]; exact hactive, fun q hq => ?_⟩
    obtain ⟨room, writing⟩ := hwrite q hq
    rw [block, writer]
    exact ⟨room, State.writingFrom_append writing hmore⟩
  fetching := fetcher
  inFlight u hu hk := by
    rw [writer]
    rcases inFlight with e | e <;> rw [e] at hu
    · exact h.inFlight u hu hk
    · exact absurd hu nofun
  queued := (State.EventsOk.adds ⟨h.queued, h.oneOffer⟩ k).queued
  oneOffer := (State.EventsOk.adds ⟨h.queued, h.oneOffer⟩ k).oneOffer

theorem State.RingsInv.events {s : State} (h : s.RingsInv) : s.EventsOk := ⟨h.queued, h.oneOffer⟩

/-- Outside RUNNING and DRAINING no write is outstanding, and none is in flight. -/
theorem State.RingsInv.idle {s : State} (h : s.RingsInv) (active : s.ctl.active = false) :
    s.writer.outstanding = none := by
  cases hw : s.writer.outstanding with
  | none => rfl
  | some t => exact absurd (h.writer t hw).1 (by simp [active])

/-- With an empty backlog no write is outstanding. -/
theorem State.RingsInv.idle_of_empty {s : State} (h : s.RingsInv) (empty : s.backlog.entries = []) :
    s.writer.outstanding = none := by
  cases hw : s.writer.outstanding with
  | none => rfl
  | some t =>
    obtain ⟨q, hq⟩ := Option.isSome_iff_exists.mp (h.controller.writing t hw)
    obtain ⟨-, urgent, c, hc⟩ := (h.writer t hw).2 q hq
    simp [State.oldestFor, empty] at hc

/-- No write is outstanding or in flight, the rings keep their bounds and the events theirs. -/
theorem State.RingsInv.of_idle {t : State} (controller : t.ControllerInv)
    (occupancy : ∀ q : CqNo, t.writer.rings[q].occupancy ≤ cqSize t.block q) (idle : t.writer.outstanding = none)
    (fetcher : ∀ u, t.fetcher.outstanding = some u → u.kind.completionOf = none)
    (inFlight : ∀ u, t.port.inFlight = some u → u.kind.completionOf = none) (events : t.EventsOk) : t.RingsInv where
  controller := controller
  occupancy := occupancy
  writer u hu := by simp [idle] at hu
  fetching := fetcher
  inFlight u hu hk := by simp [inFlight u hu] at hk
  queued := events.queued
  oneOffer := events.oneOffer

theorem State.EventsOk.of_empty {s : State} (entries : s.backlog.entries = []) (waiting : s.backlog.waiting = [])
    (lines : ∀ n, (s.line n).event.queued = false) : s.EventsOk :=
  ⟨fun n => by simp [State.eventEntries, entries, lines], fun n => by simp [waiting]⟩

theorem State.enterFaulted_ringsInv (s : State) (code : FaultCode) (source : FaultSource) (hcode : code ≠ .none)
    (hport : s.port.inFlight = none) (occupancy : ∀ q : CqNo, s.writer.rings[q].occupancy ≤ cqSize s.block q) :
    (s.enterFaulted code source).RingsInv := by
  refine .of_idle (s.enterFaulted_controllerInv code source hcode hport) occupancy rfl nofun ?_ ?_
  · intro u hu
    have : s.port.inFlight = some u := hu
    simp [hport] at this
  · exact .of_empty rfl rfl fun n => by simp [State.enterFaulted, State.updateNotify, State.line, Line.shutDown]

theorem State.takeReset_ringsInv (s : State) (cause : ResetCause) (qbase : Addr) (high : Bool) :
    (s.takeReset cause qbase high).RingsInv := by
  refine .of_idle (s.takeReset_controllerInv cause qbase high) (fun q => ?_) rfl nofun nofun ?_
  · simp [State.takeReset, State.reset, Writer.rest]
  · exact .of_empty rfl rfl fun n => by simp [State.takeReset, State.reset, State.line, Line.rest]

/-! ### Each effect -/

theorem State.RingsInv.descriptorReadOver {s : State} (h : s.RingsInv) (hstate : s.ctl.state = .loading) (k : Fin 4)
    (e : ReadEnd Record) : (s.transferOver.descriptorReadOver k e).RingsInv := by
  have controller := h.controller.descriptorReadOver k e hstate
  have idle := h.idle (by rw [Bool.eq_false_iff, Ne, Controller.active_iff]; simp [hstate])
  revert controller
  unfold State.descriptorReadOver
  dsimp only
  split
  · intro controller
    exact .of_idle controller h.occupancy idle nofun nofun ⟨h.queued, h.oneOffer⟩
  · split
    · intro _
      exact State.enterFaulted_ringsInv _ _ _ (by simp) rfl h.occupancy
    · split
      · intro controller
        exact .of_idle controller h.occupancy idle (by rintro u ⟨⟩; rfl) nofun ⟨h.queued, h.oneOffer⟩
      · split
        · intro controller
          refine .of_idle controller (fun q => ?_) rfl nofun nofun (h.events.adds (.of_same rfl fun n => ?_))
          · simp [State.loadBlock, State.updateNotify, Writer.rest]
          · simp only [State.loadBlock, State.updateNotify, State.line, Fin.getElem_fin, Vector.getElem_map,
              Line.dropUnusedEvents, State.transferOver]
            split <;> rfl
        · intro _
          exact State.enterFaulted_ringsInv _ _ _ (by simp) rfl fun q => by simp [Writer.rest]

/-- A record joins a list of its line; no line's event flag is touched. -/
theorem State.dispatch_queued (s : State) (q : SqNo) (slot : Slot) (bytes : List Byte) (n : LineNo) :
    ((s.dispatch q slot bytes).line n).event.queued = (s.line n).event.queued := by
  have routed (u : State) (k : LineNo) (b : Body) :
      ((u.route q slot k b).line n).event.queued = (u.line n).event.queued := by
    cases b with
    | fence => rfl
    | command c => exact u.setLine_queued k (l := (u.line k).joinControl slot c) rfl n
    | send w =>
      simp only [State.route]
      split
      · rfl
      · split
        · exact u.setLine_queued k (l := (u.line k).joinPolls slot (.send w)) rfl n
        · exact u.setLine_queued k (l := (u.line k).joinSends slot w) rfl n
    | buffer w =>
      simp only [State.route]
      split
      · rfl
      · obtain ⟨-, -, -, -, -, -, hevent⟩ := (u.line k).joinBuffers_frame slot w
        exact u.setLine_queued k (by rw [hevent]) n
    | poll w =>
      simp only [State.route]
      split
      · rfl
      · exact u.setLine_queued k (l := (u.line k).joinPolls slot (.poll w)) rfl n
  unfold State.dispatch
  split
  · rfl
  · exact routed _ _ _

theorem State.recordFetched_adds (s : State) (q : SqNo) (slot : Slot) (bytes : List Byte) :
    s.AddsCompletions (s.recordFetched q slot bytes) := by
  rw [State.recordFetched_eq]
  refine State.AddsCompletions.trans (.of_same ?_ fun n => ?_) (State.settle_adds _ _ _)
  all_goals
    obtain ⟨credit, hcredit⟩ := State.giveUpCredit_eq ((s.fetchAdvanced q).dispatch q slot bytes) q
    rw [hcredit]
  · exact ((s.fetchAdvanced q).dispatch_registers q slot bytes).backlog
  · exact (s.fetchAdvanced q).dispatch_queued q slot bytes n

/-- An event entry takes a slot: the line's flag is set and no offer of it is left waiting (01 R19). -/
theorem State.EventsOk.enterEvent {s : State} (n : LineNo) (others : ∀ m, m ≠ n → s.eventEntries m =
      (if (s.line m).event.queued then 1 else 0) ∧
      s.backlog.waiting.count (.event m) ≤ if (s.line m).event.queued then 0 else 1)
    (unqueued : s.eventEntries n = 0) (unoffered : s.backlog.waiting.count (.event n) = 0) : (s.enterEvent n).EventsOk := by
  have line (m : LineNo) : ((s.enterEvent n).line m).event.queued = if m = n then true else (s.line m).event.queued := by
    change ((s.setLine n _).line m).event.queued = _
    rw [State.line_setLine]
    split <;> rfl
  have entries (m : LineNo) : (s.enterEvent n).eventEntries m = s.eventEntries m + if n = m then 1 else 0 := by
    simp [State.eventEntries_eq, State.enterEvent, List.countP_append, BacklogEntry.eventOf, List.countP_cons]
  refine ⟨fun m => ?_, fun m => ?_⟩
  · rw [line, entries]
    by_cases hm : m = n
    · subst hm; simp [unqueued]
    · simp [hm, Ne.symm hm, (others m hm).1]
  · rw [line]
    change s.backlog.waiting.count (.event m) ≤ _
    by_cases hm : m = n
    · subst hm; simp [unoffered]
    · simpa [hm] using (others m hm).2

/-- An event entry of a line is offered: it takes a slot, or the event unit waits (01 R19, 07 R131). -/
theorem State.EventsOk.eventOffered {s : State} (h : s.EventsOk) {n : LineNo} (may : s.mayOfferEvent n = true) :
    (s.offer (.event n)).EventsOk := by
  have hmay : (s.line n).event.queued = false ∧ Producer.event n ∉ s.backlog.waiting := by
    unfold State.mayOfferEvent at may
    simp only [Bool.and_eq_true, Bool.not_eq_true', List.contains_eq_mem, decide_eq_false_iff_not] at may
    exact ⟨may.1.1.1.2, may.1.1.2⟩
  obtain ⟨unqueued, unoffered⟩ := hmay
  have hcount := List.count_eq_zero.mpr unoffered
  unfold State.offer
  split
  · exact .enterEvent n (fun m _ => ⟨h.queued m, h.oneOffer m⟩) (by rw [h.queued, unqueued]; rfl) hcount
  · refine ⟨h.queued, fun m => ?_⟩
    have := h.oneOffer m
    by_cases hm : n = m
    · subst hm
      change (s.backlog.waiting ++ [Producer.event n]).count (.event n) ≤ if (s.line n).event.queued then 0 else 1
      simp [hcount, unqueued, List.count_append]
    · change (s.backlog.waiting ++ [Producer.event n]).count (.event m) ≤ if (s.line m).event.queued then 0 else 1
      simpa [List.count_append, hm] using this

/-- A waiting producer is granted the free slot (01 R21). -/
theorem State.EventsOk.granted {s : State} (h : s.EventsOk) {p : Producer} (waits : p ∈ s.backlog.waiting) :
    (State.enterBacklog
      { s with backlog := { s.backlog with waiting := s.backlog.waiting.erase p, lastGranted := p } } p).EventsOk := by
  have counts (m : LineNo) : (s.backlog.waiting.erase p).count (.event m) ≤ s.backlog.waiting.count (.event m) :=
    List.Sublist.count_le _ List.erase_sublist
  cases p with
  | event n =>
    have one : 1 ≤ s.backlog.waiting.count (.event n) := List.one_le_count_iff.mpr waits
    have hn := h.oneOffer n
    have unqueued : (s.line n).event.queued = false := by
      by_contra hq
      rw [if_pos (by simpa using hq)] at hn
      omega
    rw [unqueued, if_neg (by simp)] at hn
    refine .enterEvent n (fun m _ => ⟨h.queued m, Nat.le_trans (counts m) (h.oneOffer m)⟩) ?_ ?_
    · refine (h.queued n).trans ?_
      rw [unqueued]
      rfl
    · change (s.backlog.waiting.erase (.event n)).count (.event n) = 0
      rw [List.count_erase_self]
      omega
  | dispatcher | fence | control | data | transmitter =>
    refine State.EventsOk.adds ?_ (State.enterBacklog_adds _ (by simp))
    exact ⟨h.queued, fun m => Nat.le_trans (counts m) (h.oneOffer m)⟩

/-- The writer takes the oldest entry for a CQ; an event entry becomes a completion and its line's flag is cleared
(07 R132). -/
theorem State.EventsOk.takeEntry {s : State} (h : s.EventsOk) (b : Block) {q : CqNo} {e : BacklogEntry}
    (oldest : s.oldestFor q = some e) : (s.takeEntry b q e).EventsOk ∧ (s.takeEntry b q e).writingFrom q := by
  obtain ⟨before, after, hsplit, hq, hbefore, -, hreplace⟩ := State.oldestFor_eq_some oldest
  cases e with
  | completion cq urgent c =>
    subst hq
    exact ⟨⟨h.queued, h.oneOffer⟩, urgent, c, oldest⟩
  | event cq n =>
    subst hq
    have line (m : LineNo) : ((s.takeEntry b (BacklogEntry.event cq n).cq (.event cq n)).line m).event.queued =
        if m = n then false else (s.line m).event.queued := by
      change ((s.setLine n (s.line n).captured).line m).event.queued = _
      rw [State.line_setLine]
      split <;> rfl
    have entries : (s.takeEntry b (BacklogEntry.event cq n).cq (.event cq n)).backlog.entries =
        before ++ .completion cq false ((s.line n).eventCompletion n) :: after := hreplace _
    have counted (m : LineNo) : s.eventEntries m =
        (s.takeEntry b (BacklogEntry.event cq n).cq (.event cq n)).eventEntries m + if n = m then 1 else 0 := by
      rw [State.eventEntries_eq, State.eventEntries_eq, entries, hsplit]
      simp [List.countP_append, List.countP_cons, BacklogEntry.eventOf]
      omega
    refine ⟨⟨fun m => ?_, fun m => ?_⟩, false, (s.line n).eventCompletion n, ?_⟩
    · have hm := h.queued m
      rw [counted] at hm
      rw [line]
      by_cases heq : m = n
      · subst heq
        simp only [if_true] at hm ⊢
        split at hm <;> simp at hm ⊢
        exact hm
      · simpa [heq, Ne.symm heq] using hm
    · rw [line]
      have hm := h.oneOffer m
      change s.backlog.waiting.count (.event m) ≤ _
      split
      · split at hm <;> simp <;> omega
      · exact hm
    · unfold State.oldestFor
      rw [entries, List.find?_append, List.find?_eq_none.mpr (by simpa using hbefore)]
      simp [BacklogEntry.cq]

/-- The completion written leaves its slot; it is no event entry. -/
theorem State.EventsOk.written {s t : State} (h : s.EventsOk) {q : CqNo} (writing : s.writingFrom q)
    (entries : t.backlog = { s.backlog with entries := removeOldest q s.backlog.entries }) (lines : t.lines = s.lines) :
    t.EventsOk := by
  obtain ⟨urgent, c, hc⟩ := writing
  obtain ⟨before, after, hsplit, -, -, hremove, -⟩ := State.oldestFor_eq_some hc
  have line (m : LineNo) : t.line m = s.line m := by simp only [State.line, lines]
  refine ⟨fun m => ?_, fun m => ?_⟩
  · rw [line, ← h.queued m, State.eventEntries_eq, State.eventEntries_eq, entries]
    simp only
    rw [hremove, hsplit]
    simp [List.countP_append, BacklogEntry.eventOf]
  · rw [line, entries]
    exact h.oneOffer m

theorem State.RingsInv.drained {s : State} (h : s.RingsInv) : s.drained.RingsInv := by
  rcases s.drained_cases with hd | ⟨-, -, hempty, hd⟩
  · rwa [hd]
  · have controller := h.controller.drained
    rw [hd] at controller ⊢
    have idle := h.idle_of_empty hempty
    refine .of_idle controller h.occupancy idle h.fetching (fun u hu => ?_) ⟨h.queued, h.oneOffer⟩
    by_contra hk
    have := h.inFlight u hu (Option.isSome_iff_ne_none.mpr hk)
    simp [idle] at this

theorem State.RingsInv.effect (s t : State) (h : s.RingsInv) (he : s.Effect t) : t.RingsInv := by
  have controller : t.ControllerInv := State.ControllerInv.effect s t h.controller he
  have keeps {t : State} (controller : t.ControllerInv) (k : s.AddsCompletions t) (state : t.ctl.state = s.ctl.state)
      (block : t.block = s.block) (writer : t.writer = s.writer)
      (fetcher : t.fetcher.outstanding = s.fetcher.outstanding ∨ t.fetcher.outstanding = none)
      (inFlight : t.port.inFlight = s.port.inFlight ∨ t.port.inFlight = none) : t.RingsInv := by
    refine h.adds controller k (by simp only [Controller.active, state]) block writer (fun u hu => ?_) inFlight
    rcases fetcher with e | e <;> rw [e] at hu
    · exact h.fetching u hu
    · exact absurd hu nofun
  have occupancies {q : CqNo} {r : CqRing} (hr : r.occupancy ≤ cqSize s.block q) (p : CqNo) :
      (s.writer.rings.set q r)[p].occupancy ≤ cqSize s.block p := by
    by_cases hp : q = p
    · subst hp; simpa using hr
    · simpa [Fin.val_ne_of_ne hp] using h.occupancy p
  cases he with
  | quiet same =>
    exact keeps controller (.of_same same.backlog fun n => by simp only [State.line, same.lines]) same.state same.block
      same.writer (.inl (by rw [same.fetcher])) (.inl (by rw [same.port]))
  | transferEnds => exact keeps controller (.of_same rfl fun _ => rfl) rfl rfl rfl (.inl rfl) (.inr rfl)
  | loadEnds | posted => exact keeps controller (.of_same rfl fun _ => rfl) rfl rfl rfl (.inl rfl) (.inl rfl)
  | line n k reports inFlight port kept =>
    have set : s.AddsCompletions ((s.withPort reports inFlight).setLine n k) :=
      .of_same rfl ((s.withPort reports inFlight).setLine_queued n kept.queued)
    exact keeps controller (set.settle _ _) (by simp [State.withPort])
      (by simp [State.withPort]) (by simp [State.withPort]) (.inl (by simp [State.withPort]))
      (by simpa [State.withPort] using port)
  | query n p reports =>
    exact keeps controller (.of_same rfl (s.setLine_queued n (l := { s.line n with progress := p }) rfl)) rfl rfl rfl
      (.inl rfl) (.inl rfl)
  | started state =>
    have idle := h.idle (by simp [Controller.active, state])
    refine .of_idle controller h.occupancy idle (by rintro u ⟨⟩; rfl) (fun u hu => ?_) ⟨h.queued, h.oneOffer⟩
    by_contra hk
    have := h.inFlight u hu (Option.isSome_iff_ne_none.mpr hk)
    simp [idle] at this
  | stopped state =>
    have ended : s.AddsCompletions { s with ctl := { s.ctl with state := .draining }, lines := s.lines.map Line.stop } :=
      .of_same rfl fun n => by simpa [State.line] using (s.lines[n].stop_step).queued
    refine State.RingsInv.drained (h.adds ?_ (ended.settle _ _) ?_ (by simp)
      (by simp) (fun u hu => h.fetching u (by simpa using hu)) (.inl (by simp)))
    · exact h.controller.passes (by simp [state]) (by simp) (by simp) (by simp) (by simp) (by simp) (by simp)
    · simp [Controller.active, state]
  | reset => exact State.takeReset_ringsInv _ _ _ _
  | released q amount =>
    refine ⟨controller, occupancies (Nat.le_trans (Nat.sub_le _ _) (h.occupancy q)), fun u hu => ?_, h.fetching, h.inFlight,
      h.queued, h.oneOffer⟩
    obtain ⟨active, hwrite⟩ := h.writer u hu
    refine ⟨active, fun p hp => ?_⟩
    obtain ⟨room, writing⟩ := hwrite p hp
    refine ⟨?_, writing⟩
    by_cases hqp : q = p
    · subst hqp
      simpa using Nat.lt_of_le_of_lt (Nat.sub_le _ _) room
    · simpa [Fin.val_ne_of_ne hqp] using room
  | descriptorRead u k e inFlight kind =>
    have hk : u.kind.descriptorIndex.isSome = true := by simp [kind, TransferKind.descriptorIndex]
    exact h.descriptorReadOver (h.controller.loading u (h.controller.reading u inFlight hk) hk) k e
  | fetchIssued b slot q credit state =>
    exact h.adds controller (.of_same rfl fun _ => rfl) rfl rfl rfl (by rintro u ⟨⟩; rfl) (.inl rfl)
  | fetched u q slot bytes =>
    obtain ⟨hctl, hblock, hwriter, -, hport, credit, hfetcher⟩ := State.recordFetched_frame
      { s.transferOver with fetcher := { s.fetcher with outstanding := none } } q slot bytes
    have fetched : s.AddsCompletions { s.transferOver with fetcher := { s.fetcher with outstanding := none } } :=
      .of_same rfl fun _ => rfl
    exact keeps controller (fetched.trans (State.recordFetched_adds _ q slot bytes)) (by rw [hctl]; rfl)
      (by rw [hblock]; rfl) (by rw [hwriter]; rfl) (.inr (by rw [hfetcher]; rfl)) (.inr (by rw [hport]; rfl))
  | fetchFailed | writeFailed => exact State.enterFaulted_ringsInv _ _ _ (by simp) rfl h.occupancy
  | fenceEnds q f held r =>
    have composed : s.AddsCompletions
        { s with fences := s.fences.set q none, fencesDone := s.fencesDone ++ [(f.slot, r)] } := .of_same rfl fun _ => rfl
    exact keeps controller (composed.settle _ _) (by simp) (by simp) (by simp)
      (.inl (by simp)) (.inl (by simp))
  | eventOffered n may =>
    obtain ⟨more, hmore⟩ : ∃ more, (s.offer (.event n)).backlog.entries = s.backlog.entries ++ more := by
      unfold State.offer
      split
      · exact State.enterBacklog_entries_grow _ _
      · exact ⟨[], by simp⟩
    have events := h.events.eventOffered may
    refine ⟨controller, by simpa using h.occupancy, fun u hu => ?_, by simpa using h.fetching, by simpa using h.inFlight,
      events.queued, events.oneOffer⟩
    rw [State.offer_writer] at hu
    obtain ⟨active, hwrite⟩ := h.writer u hu
    refine ⟨by simpa using active, fun q hq => ?_⟩
    obtain ⟨room, writing⟩ := hwrite q hq
    exact ⟨by simpa using room, State.writingFrom_append writing hmore⟩
  | granted p room waits =>
    obtain ⟨more, hmore⟩ := State.settle_entries_grow p.siblings settleBound (State.enterBacklog
      { s with backlog := { s.backlog with waiting := s.backlog.waiting.erase p, lastGranted := p } } p)
    obtain ⟨first, hfirst⟩ := State.enterBacklog_entries_grow
      { s with backlog := { s.backlog with waiting := s.backlog.waiting.erase p, lastGranted := p } } p
    have events := (h.events.granted waits).adds (State.settle_adds _ p.siblings settleBound)
    refine ⟨controller, by simpa using h.occupancy, fun u hu => ?_, by simpa using h.fetching, by simpa using h.inFlight,
      events.queued, events.oneOffer⟩
    rw [State.settle_writer, State.enterBacklog_writer] at hu
    obtain ⟨active, hwrite⟩ := h.writer u hu
    refine ⟨by simpa using active, fun q hq => ?_⟩
    obtain ⟨free, writing⟩ := hwrite q hq
    refine ⟨by simpa using free, State.writingFrom_append writing (more := first ++ more) ?_⟩
    rw [hmore, hfirst, List.append_assoc]
  | entryTaken b q e active idle block serviceable oldest =>
    obtain ⟨hctl, hblock, hfetcher, -, hport, hrings, u, hu, hkind⟩ := s.takeEntry_frame b q e
    obtain ⟨events, writing⟩ := h.events.takeEntry b oldest
    refine ⟨controller, by rw [hrings, hblock]; exact h.occupancy, fun v hv => ?_, by rw [hfetcher]; exact h.fetching,
      fun v hv hk => ?_, events.queued, events.oneOffer⟩
    · rw [hu] at hv
      cases hv
      refine ⟨by rw [hctl]; exact active, fun p hp => ?_⟩
      rw [hkind] at hp
      cases hp
      rw [hrings, hblock]
      unfold State.serviceable at serviceable
      simp only [Bool.and_eq_true, decide_eq_true_iff] at serviceable
      exact ⟨serviceable.2, writing⟩
    · rw [hport] at hv
      have := h.inFlight v hv hk
      simp [idle] at this
  | written u q inFlight kind =>
    obtain ⟨hctl, hblock, hfetcher, hport, hlines, -, -, hbacklog, hwriter⟩ := s.transferOver.completionWritten_frame q
    obtain ⟨-, hwrite⟩ := h.writer u (h.inFlight u inFlight (by simp [kind, TransferKind.completionOf]))
    obtain ⟨room, writing⟩ := hwrite q (by simp [kind, TransferKind.completionOf])
    refine .of_idle controller ?_ (by rw [hwriter]) (by rw [hfetcher]; exact h.fetching) (by rw [hport]; exact nofun)
      (State.EventsOk.written (s := s) ⟨h.queued, h.oneOffer⟩ writing hbacklog hlines)
    rw [hwriter, hblock]
    exact occupancies (q := q) room
  | drained => exact h.drained
  | portGranted u r next =>
    refine ⟨controller, h.occupancy, h.writer, h.fetching, fun v hv hk => ?_, h.queued, h.oneOffer⟩
    cases hv
    rcases State.nextGrant_cases next with hw | hf | ⟨-, hnone, -⟩
    · exact hw
    · simp [h.fetching u hf] at hk
    · simp [hnone] at hk

/-- Settles O8: every effect of a command keeps the occupancies within the rings and each line's event entries at one. -/
theorem completionRingsKept : Obligations.CompletionRingsKept :=
  kept_by_step State.RingsInv.effect

end Sys2Proof.Machine

/-! PROOFS of O11: composed completions are admitted or wait. An offer comes into being in the step that composes it, and the
offers made in that step end with every producer of that step waiting or with nothing on offer. -/

namespace Sys2Proof.Machine

/-! ### What changes a line's offers -/

theorem mem_lineProducers {n : LineNo} {p : Producer} : p ∈ lineProducers n ↔ p.lineOf = some n := by
  cases p <;> simp [lineProducers, Producer.lineOf]

theorem mem_lineNumbers (n : LineNo) : n ∈ lineNumbers := by
  revert n
  decide

theorem mem_allLineProducers {p : Producer} : p ∈ allLineProducers ↔ ∃ n, p.lineOf = some n := by
  simp [allLineProducers, mem_lineProducers, mem_lineNumbers]

theorem State.onOffer_setLine_other (s : State) {n : LineNo} (l : Line) {p : Producer} (h : p.lineOf ≠ some n) :
    (s.setLine n l).onOffer p = s.onOffer p := by
  cases hp : p.lineOf with
  | some k =>
    have hk : k ≠ n := fun hk => h (hk ▸ hp)
    rw [State.onOffer_line _ hp, State.onOffer_line _ hp, State.line_setLine_other s l hk]
  | none =>
    cases p with
    | dispatcher | fence | event => rfl
    | control | data | transmitter => exact absurd hp nofun

theorem State.onOffer_setLine_same (s : State) {n : LineNo} (l : Line) {p : Producer} (h : p.lineOf = some n) :
    (s.setLine n l).onOffer p = l.onOffer p := by
  rw [State.onOffer_line _ h, State.line_setLine_same]

/-- A line keeps every composed completion on offer through a step that keeps its mode, and through any step that meets it
without a data record. -/
theorem Line.Kept.onOffer {l k : Line} (h : l.Kept k) (mode : k.isPoll = l.isPoll ∨ l.Unloaded) {p : Producer}
    (hp : (l.onOffer p).isSome = true) : (k.onOffer p).isSome = true := by
  cases p with
  | dispatcher | fence | event => exact absurd hp nofun
  | control n => exact h.control.1.headResult hp
  | transmitter n => exact h.tx.headResult hp
  | data n =>
    simp only [Line.onOffer] at hp ⊢
    rcases mode with mode | ⟨-, hfiller, hpoll⟩
    · rw [mode]
      split at hp
      · next hm => rw [if_pos hm]; exact h.poll.headResult hp
      · next hm => rw [if_neg hm]; exact h.filler.headResult hp
    · simp [hfiller, hpoll, headResult] at hp

theorem Line.Step.onOffer {l k : Line} (h : l.Step k) {p : Producer} (hp : (l.onOffer p).isSome = true) :
    (k.onOffer p).isSome = true :=
  h.toKept.onOffer (.inl h.isPoll) hp

/-- The admission of one producer's entry leaves the line's other offers. -/
theorem Line.movedOn_onOffer (l : Line) (slot : Slot) (r : Result) {p q : Producer} {n : LineNo} (hp : p.lineOf = some n)
    (hq : q.lineOf = some n) (hne : q ≠ p) (h : (l.onOffer q).isSome = true) :
    ((l.movedOn slot r p).onOffer q).isSome = true := by
  cases p with
  | dispatcher | fence | event => exact absurd hp nofun
  | control =>
    cases hp
    cases q with
    | dispatcher | fence | event => exact absurd hq nofun
    | control => cases hq; exact absurd rfl hne
    | data | transmitter => exact h
  | transmitter =>
    cases hp
    refine (Line.recordEntered_step { l with tx := { l.tx with list := l.tx.list.tail } } slot).onOffer ?_
    cases q with
    | dispatcher | fence | event => exact absurd hq nofun
    | transmitter => cases hq; exact absurd rfl hne
    | data | control => exact h
  | data =>
    cases hp
    simp only [Line.movedOn]
    split
    · refine (Line.recordEntered_step
        { l with poll := { l.poll with list := l.poll.list.tail, attempt := .none } } slot).onOffer ?_
      cases q with
      | dispatcher | fence | event => exact absurd hq nofun
      | data => cases hq; exact absurd rfl hne
      | transmitter | control => exact h
    · refine (l.bufferEntered_step slot r).onOffer ?_
      obtain ⟨-, htx, -, hcontrol, -⟩ := l.nextBuffer_frame
      cases q with
      | dispatcher | fence | event => exact absurd hq nofun
      | data => cases hq; exact absurd rfl hne
      | transmitter => simpa only [Line.onOffer, htx] using h
      | control => simpa only [Line.onOffer, hcontrol] using h

theorem State.enterEvent_onOffer (s : State) (n : LineNo) (p : Producer) : (s.enterEvent n).onOffer p = s.onOffer p := by
  by_cases hp : p.lineOf = some n
  · have h := s.onOffer_setLine_same { s.line n with event := { (s.line n).event with queued := true } } hp
    rw [State.onOffer_line s hp]
    refine Eq.trans ?_ (h.trans ?_)
    · cases p <;> rfl
    · cases p <;> rfl
  · have h := s.onOffer_setLine_other { s.line n with event := { (s.line n).event with queued := true } } hp
    rw [← h]
    cases p <;> rfl

theorem State.onOffer_producerMovesOn_other (s : State) (slot : Slot) (r : Result) {p q : Producer} (h : q ∉ p.siblings) :
    (s.producerMovesOn slot r p).onOffer q = s.onOffer q := by
  have ofLine {n : LineNo} (hp : p.lineOf = some n) (hq : q.lineOf ≠ some n) :
      (s.producerMovesOn slot r p).onOffer q = s.onOffer q := by
    rw [State.producerMovesOn_line _ _ _ hp, State.onOffer_setLine_other _ _ hq]
  cases p with
  | event n => rfl
  | control | data | transmitter => exact ofLine rfl fun hq => h (mem_lineProducers.mpr hq)
  | dispatcher =>
    cases q with
    | dispatcher => exact absurd (List.mem_singleton_self _) h
    | fence | control | data | transmitter | event => rfl
  | fence =>
    cases q with
    | fence => exact absurd (List.mem_singleton_self _) h
    | dispatcher | control | data | transmitter | event => rfl

/-- An admission touches the offers of its producer's siblings only. -/
theorem State.onOffer_enterBacklog_other (s : State) {p q : Producer} (h : q ∉ p.siblings) :
    (s.enterBacklog p).onOffer q = s.onOffer q := by
  cases hoff : s.onOffer p with
  | some x =>
    rw [State.enterBacklog_of_offer (slot := x.1) (r := x.2) hoff, State.onOffer_producerMovesOn_other _ _ _ h,
      State.onOffer_enterRecord]
  | none =>
    by_cases he : ∃ n, p = .event n
    · obtain ⟨n, rfl⟩ := he
      exact s.enterEvent_onOffer n q
    · rw [State.enterBacklog_of_none hoff (by simpa using he)]

/-- An admission leaves the offers of the other producers of its line. -/
theorem State.onOffer_enterBacklog_kept (s : State) {p q : Producer} (hne : q ≠ p) (h : (s.onOffer q).isSome = true) :
    ((s.enterBacklog p).onOffer q).isSome = true := by
  by_cases hsib : q ∈ p.siblings
  · have ofLine {n : LineNo} (hp : p.lineOf = some n) (hq : q.lineOf = some n) :
        ((s.enterBacklog p).onOffer q).isSome = true := by
      cases hoff : s.onOffer p with
      | none =>
        rw [State.enterBacklog_of_none hoff]
        · exact h
        · rintro m rfl
          exact absurd hp nofun
      | some x =>
        rw [← s.onOffer_enterRecord x.1 x.2, State.onOffer_line _ hq] at h
        rw [State.enterBacklog_of_offer (slot := x.1) (r := x.2) hoff, State.producerMovesOn_line _ _ _ hp,
          State.onOffer_setLine_same _ _ hq]
        exact Line.movedOn_onOffer _ _ _ hp hq hne h
    cases p with
    | event n => exact absurd hsib nofun
    | control | data | transmitter => exact ofLine rfl (mem_lineProducers.mp hsib)
    | dispatcher | fence => exact absurd (List.mem_singleton.mp hsib) hne
  · rw [s.onOffer_enterBacklog_other hsib]
    exact h

/-! ### The offers of a moment end -/

/-- What bounds the offers still to be made: the records in the table and the producers that do not wait. -/
def State.offersLeft (s : State) (ps : List Producer) : Nat :=
  (List.finRange 64).countP (fun i => (s.entry i).isSome) + ps.countP fun p => !s.backlog.waiting.contains p

theorem State.enterBacklog_waiting (s : State) (p : Producer) : (s.enterBacklog p).backlog.waiting = s.backlog.waiting := by
  cases h : s.onOffer p with
  | some x =>
    obtain ⟨-, -, -, -, -, hw⟩ := s.enterRecord_frame x.1 x.2
    rw [State.enterBacklog_of_offer (slot := x.1) (r := x.2) h, State.producerMovesOn_backlog, hw]
  | none =>
    by_cases he : ∃ n, p = .event n
    · obtain ⟨n, rfl⟩ := he; rfl
    · rw [State.enterBacklog_of_none h (by simpa using he)]

theorem countP_lt_of_imp {α : Type} {xs : List α} {f g : α → Bool} (himp : ∀ x ∈ xs, g x = true → f x = true) {a : α}
    (ha : a ∈ xs) (hf : f a = true) (hg : g a = false) : xs.countP g < xs.countP f := by
  obtain ⟨ys, zs, rfl⟩ := List.append_of_mem ha
  have hys : ys.countP g ≤ ys.countP f := List.countP_mono_left fun x hx => himp x (by simp [hx])
  have hzs : zs.countP g ≤ zs.countP f := List.countP_mono_left fun x hx => himp x (by simp [hx])
  simp only [List.countP_append, List.countP_cons, hf, hg, if_true]
  simp
  omega

/-- An admission frees an entry. -/
theorem State.PlacesOk.offersLeft_enterBacklog {s : State} (h : s.PlacesOk) (ps : List Producer) {p : Producer}
    (hp : (s.onOffer p).isSome = true) : (s.enterBacklog p).offersLeft ps < s.offersLeft ps := by
  obtain ⟨⟨slot, r⟩, hoff⟩ := Option.isSome_iff_exists.mp hp
  unfold State.offersLeft
  rw [State.enterBacklog_waiting]
  refine Nat.add_lt_add_right (countP_lt_of_imp (fun i _ hi => ?_) (List.mem_finRange slot) (h.entry_of_offer hoff) ?_) _
  · rw [State.enterBacklog_entry hoff] at hi
    split at hi
    · exact absurd hi nofun
    · exact hi
  · simp [State.enterBacklog_entry hoff]

/-- A producer that begins to wait makes no further offer. -/
theorem State.offersLeft_withWaiting (s : State) {ps : List Producer} {p : Producer} (hp : p ∈ ps)
    (hw : p ∉ s.backlog.waiting) : (s.withWaiting p).offersLeft ps < s.offersLeft ps := by
  unfold State.offersLeft
  refine Nat.add_lt_add_left (countP_lt_of_imp (fun q _ hq => ?_) hp ?_ ?_) _
  · simp only [State.withWaiting, List.contains_eq_mem, List.mem_append, Bool.not_eq_true', decide_eq_false_iff_not,
      not_or] at hq ⊢
    exact hq.1
  · simpa using hw
  · simp [State.withWaiting]

theorem State.offersLeft_zero {s : State} {ps : List Producer} (h : s.offersLeft ps = 0) : s.newOffers ps = [] := by
  unfold State.offersLeft at h
  rw [Nat.add_eq_zero_iff] at h
  obtain ⟨-, hps⟩ := h
  rw [List.countP_eq_zero] at hps
  rw [State.newOffers, List.filter_eq_nil_iff]
  intro p hp
  have := hps p hp
  simp_all

/-- Within their bound the offers of a moment end with nothing new on offer. -/
theorem State.PlacesOk.settle_done {s : State} (h : s.PlacesOk) (ps : List Producer) (k : Nat) (hk : s.offersLeft ps ≤ k) :
    (State.settle ps k s).newOffers ps = [] := by
  induction k generalizing s with
  | zero => exact State.offersLeft_zero (Nat.le_zero.mp hk)
  | succ k ih =>
    unfold State.settle
    split
    · next hnone => exact hnone
    · next c cs hnew =>
      have hmem := s.pickOffer_mem c cs
      rw [← hnew, State.mem_newOffers] at hmem
      obtain ⟨hps, hoffer, hwaiting⟩ := hmem
      obtain ⟨j, hj⟩ := State.pickOffer_same s c cs
      rw [hj]
      have picked : State.PlacesOk { s with offersMade := j } :=
        h.congr rfl rfl rfl rfl (fun _ => rfl) fun _ => rfl
      have hoffer' : (State.onOffer { s with offersMade := j } (s.pickOffer c cs).1).isSome = true := by
        rw [← hoffer]
        cases (s.pickOffer c cs).1 <;> rfl
      have hk : State.offersLeft { s with offersMade := j } ps ≤ k + 1 := hk
      unfold State.offer
      split
      · have := picked.offersLeft_enterBacklog ps hoffer'
        exact ih (picked.enterBacklog _) (by omega)
      · have := State.offersLeft_withWaiting { s with offersMade := j } hps hwaiting
        refine ih (s := State.withWaiting _ _) ?_ (by omega)
        exact picked.congr rfl rfl rfl rfl (fun _ => rfl) fun _ => rfl

/-! ### Offers that are settled but for the producers of a step -/

/-- Outside `ps` exactly the producers with a composed completion wait; in `ps` none waits without one. -/
structure State.OffersBut (s : State) (ps : List Producer) : Prop where
  others : ∀ p, (∀ n, p ≠ .event n) → p ∉ ps → ((s.onOffer p).isSome = true ↔ p ∈ s.backlog.waiting)
  waits : ∀ p ∈ ps, p ∈ s.backlog.waiting → (s.onOffer p).isSome = true
  once : s.backlog.waiting.Nodup

/-- The producers of a step: those of whole units, and no event unit. -/
structure ClosedProducers (ps : List Producer) : Prop where
  siblings : ∀ p ∈ ps, ∀ q ∈ p.siblings, q ∈ ps
  few : ps.length ≤ 128

theorem siblings_lineOf {p : Producer} {n : LineNo} (h : p.lineOf = some n) : p.siblings = lineProducers n := by
  cases p <;> simp_all [Producer.lineOf, Producer.siblings]

theorem closedProducers_line (n : LineNo) : ClosedProducers (lineProducers n) where
  siblings p hp q hq := by
    rw [siblings_lineOf (mem_lineProducers.mp hp)] at hq
    exact hq
  few := by simp [lineProducers]

theorem closedProducers_allLines : ClosedProducers allLineProducers where
  siblings p hp q hq := by
    obtain ⟨n, hn⟩ := mem_allLineProducers.mp hp
    rw [siblings_lineOf hn] at hq
    exact mem_allLineProducers.mpr ⟨n, mem_lineProducers.mp hq⟩
  few := by decide

theorem closedProducers_dispatcher : ClosedProducers [.dispatcher] :=
  ⟨fun p hp q hq => by cases List.mem_singleton.mp hp; exact hq, by simp⟩

theorem closedProducers_fence : ClosedProducers [.fence] :=
  ⟨fun p hp q hq => by cases List.mem_singleton.mp hp; exact hq, by simp⟩

theorem closedProducers_siblings (p : Producer) : ClosedProducers p.siblings := by
  cases p with
  | dispatcher => exact closedProducers_dispatcher
  | fence => exact closedProducers_fence
  | control n | data n | transmitter n => exact closedProducers_line n
  | event => exact ⟨nofun, Nat.zero_le _⟩

theorem State.offersLeft_le (s : State) (ps : List Producer) : s.offersLeft ps ≤ 64 + ps.length := by
  refine Nat.add_le_add ?_ (List.countP_le_length)
  exact (List.countP_le_length).trans (by simp)

theorem State.OffersBut.admits {s : State} {ps : List Producer} (h : s.OffersBut ps) {p : Producer}
    (closed : ClosedProducers ps) (hp : p ∈ ps) (room : s.hasRoom) : (s.enterBacklog p).OffersBut ps := by
  obtain ⟨-, empty⟩ := room
  have waiting := s.enterBacklog_waiting p
  refine ⟨fun q hq hps => ?_, fun q _ hw => ?_, by rw [waiting]; exact h.once⟩
  · rw [s.onOffer_enterBacklog_other fun hsib => hps (closed.siblings p hp q hsib), waiting]
    exact h.others q hq hps
  · rw [waiting, empty] at hw
    exact absurd hw nofun

theorem State.OffersBut.waitsFor {s : State} {ps : List Producer} (h : s.OffersBut ps) {p : Producer} (hp : p ∈ ps)
    (offers : (s.onOffer p).isSome = true) (hw : p ∉ s.backlog.waiting) : (s.withWaiting p).OffersBut ps := by
  have same (q : Producer) : (s.withWaiting p).onOffer q = s.onOffer q := by cases q <;> rfl
  have mem (q : Producer) : q ∈ (s.withWaiting p).backlog.waiting ↔ q ∈ s.backlog.waiting ∨ q = p := by
    simp [State.withWaiting]
  refine ⟨fun q hq hps => ?_, fun q hq hw => ?_, ?_⟩
  · rw [same, mem, h.others q hq hps]
    exact ⟨.inl, fun hor => hor.resolve_right fun heq => hps (heq ▸ hp)⟩
  · rw [same]
    rcases (mem q).mp hw with hw | rfl
    · exact h.waits q hq hw
    · exact offers
  · simpa [State.withWaiting, List.nodup_append, h.once] using fun a ha => by rintro rfl; exact hw ha

/-- The offers of a moment leave every composed completion admitted or waiting. -/
theorem State.OffersBut.settle {s : State} {ps : List Producer} (h : s.OffersBut ps) (places : s.PlacesOk)
    (closed : ClosedProducers ps) : (State.settle ps settleBound s).OffersBut [] := by
  have done := places.settle_done ps settleBound
    ((s.offersLeft_le ps).trans (by have := closed.few; unfold settleBound; omega))
  have kept : (State.settle ps settleBound s).OffersBut ps :=
    State.settle_induction ps (P := fun u => u.OffersBut ps)
      (fun u j h => ⟨fun q hq hps => by rw [← h.others q hq hps]; cases q <;> rfl,
        fun q hq hw => by rw [← h.waits q hq hw]; cases q <;> rfl, h.once⟩)
      (fun u p h hp _ _ room => h.admits closed hp room) (fun u p h hp offers hw => h.waitsFor hp offers hw) settleBound h
  refine ⟨fun p hp _ => ?_, nofun, kept.once⟩
  by_cases hps : p ∈ ps
  · refine ⟨fun offers => ?_, kept.waits p hps⟩
    by_contra hw
    have : p ∈ (State.settle ps settleBound s).newOffers ps := State.mem_newOffers.mpr ⟨hps, offers, hw⟩
    rw [done] at this
    exact absurd this nofun
  · exact kept.others p hp hps

/-- The offers look at the dispatcher, the fence logic, the lines' modes and lists, and the producers that wait. -/
theorem State.OffersBut.congr {s t : State} {ps : List Producer} (h : s.OffersBut []) (waiting : t.backlog.waiting = s.backlog.waiting)
    (others : ∀ p, p ∉ ps → t.onOffer p = s.onOffer p)
    (kept : ∀ p ∈ ps, p ∈ s.backlog.waiting → (s.onOffer p).isSome = true → (t.onOffer p).isSome = true)
    (noEvent : ∀ n, Producer.event n ∉ ps) : t.OffersBut ps := by
  refine ⟨fun p hp hps => ?_, fun p hps hw => ?_, by rw [waiting]; exact h.once⟩
  · rw [others p hps, waiting]
    exact h.others p hp (by simp)
  · rw [waiting] at hw
    exact kept p hps hw ((h.others p (by rintro n rfl; exact noEvent n hps) (by simp)).mpr hw)

theorem State.OffersBut.same {s t : State} (h : s.OffersBut []) (waiting : t.backlog.waiting = s.backlog.waiting)
    (offers : ∀ p, t.onOffer p = s.onOffer p) : t.OffersBut [] :=
  h.congr waiting (fun p _ => offers p) nofun (fun _ => by simp)

/-- The same dispatcher, fence logic and lines make the same offers. -/
theorem State.onOffer_congr {s t : State} (dispatched : t.dispatched = s.dispatched) (fencesDone : t.fencesDone = s.fencesDone)
    (lines : t.lines = s.lines) (p : Producer) : t.onOffer p = s.onOffer p := by
  cases hp : p.lineOf with
  | some n =>
    have line : t.line n = s.line n := by simp only [State.line, lines]
    rw [State.onOffer_line _ hp, State.onOffer_line _ hp, line]
  | none =>
    cases p with
    | dispatcher => simp only [State.onOffer, dispatched]
    | fence => simp only [State.onOffer, fencesDone]
    | event => rfl
    | control | data | transmitter => exact absurd hp nofun

theorem State.OffersBut.of_empty {s : State} (waiting : s.backlog.waiting = []) (none : ∀ p, s.onOffer p = none) :
    s.OffersBut [] :=
  ⟨fun p _ _ => by simp [none, waiting], nofun, by simp [waiting]⟩

/-! ### What dispatch does to the offers -/

theorem headResult_append_listed {β : Type} (xs : List (Member β)) (m : Member β) (h : m.phase = .listed) :
    headResult (xs ++ [m]) = headResult xs := by
  obtain ⟨slot, phase, body⟩ := m
  subst h
  cases xs with
  | nil => rfl
  | cons x xs => obtain ⟨i, ph, b⟩ := x; cases ph <;> rfl

theorem Line.joinControl_onOffer (l : Line) (slot : Slot) (c : LineCommand) (p : Producer) :
    (l.joinControl slot c).onOffer p = l.onOffer p := by
  have hlist : headResult (l.joinControl slot c).control = headResult l.control := by
    unfold Line.joinControl
    cases l.control with
    | nil => rfl
    | cons x xs => exact headResult_append_listed (x :: xs) _ (by simp)
  cases p with
  | control => exact hlist
  | dispatcher | fence | data | transmitter | event => rfl

theorem Line.joinSends_onOffer (l : Line) (slot : Slot) (b : SendBody) (p : Producer) :
    (l.joinSends slot b).onOffer p = l.onOffer p := by
  cases p with
  | transmitter => exact headResult_append_listed _ _ rfl
  | dispatcher | fence | data | control | event => rfl

theorem Line.joinPolls_onOffer (l : Line) (slot : Slot) (w : PollWork) (p : Producer) :
    (l.joinPolls slot w).onOffer p = l.onOffer p := by
  cases p with
  | data =>
    change (if l.isPoll then headResult (l.poll.list ++ [_]) else _) = _
    rw [headResult_append_listed _ _ rfl]
    rfl
  | dispatcher | fence | transmitter | control | event => rfl

theorem Line.joinBuffers_onOffer (l : Line) (slot : Slot) (b : BufferBody) (p : Producer) :
    (l.joinBuffers slot b).onOffer p = l.onOffer p := by
  obtain ⟨-, htx, hpoll, hcontrol, -, hrecord, -⟩ := l.joinBuffers_frame slot b
  have hlist : headResult (l.joinBuffers slot b).filler.list = headResult l.filler.list := by
    unfold Line.joinBuffers
    split
    · next h => rw [List.isEmpty_iff.mp h]; rfl
    · exact headResult_append_listed _ _ rfl
  have hmode : (l.joinBuffers slot b).isPoll = l.isPoll := by simp only [Line.isPoll, hrecord]
  cases p with
  | dispatcher | fence | event => rfl
  | control => simp only [Line.onOffer, hcontrol]
  | transmitter => simp only [Line.onOffer, htx]
  | data => unfold Line.onOffer; rw [hmode, hpoll, hlist]

theorem State.onOffer_setLine (s : State) (n : LineNo) {l : Line} (h : ∀ p, l.onOffer p = (s.line n).onOffer p)
    (p : Producer) : (s.setLine n l).onOffer p = s.onOffer p := by
  by_cases hp : p.lineOf = some n
  · rw [State.onOffer_setLine_same _ _ hp, State.onOffer_line _ hp, h]
  · exact s.onOffer_setLine_other l hp

/-- Dispatch composes completions of the dispatcher alone, behind what it holds. -/
structure State.DispatcherOffers (s t : State) : Prop where
  others : ∀ p, p ≠ .dispatcher → t.onOffer p = s.onOffer p
  kept : (s.onOffer .dispatcher).isSome = true → (t.onOffer .dispatcher).isSome = true

theorem State.DispatcherOffers.of_same {s t : State} (h : ∀ p, t.onOffer p = s.onOffer p) : s.DispatcherOffers t :=
  ⟨fun p _ => h p, fun hd => by rwa [h]⟩

theorem State.completeAtOnce_offers (s : State) (slot : Slot) (st : Status) :
    s.DispatcherOffers (s.completeAtOnce slot st) := by
  refine ⟨fun p hp => ?_, fun _ => ?_⟩
  · cases p with
    | dispatcher => exact absurd rfl hp
    | fence | control | data | transmitter | event => rfl
  · simp [State.onOffer, State.completeAtOnce]

theorem State.route_offers (s : State) (q : SqNo) (slot : Slot) (n : LineNo) (b : Body) :
    s.DispatcherOffers (s.route q slot n b) := by
  cases b with
  | fence => exact .of_same fun p => by cases p <;> rfl
  | command c => exact .of_same (s.onOffer_setLine n (Line.joinControl_onOffer _ _ _))
  | send w =>
    simp only [State.route]
    split
    · exact s.completeAtOnce_offers _ _
    · split
      · exact .of_same (s.onOffer_setLine n (Line.joinPolls_onOffer _ _ _))
      · exact .of_same (s.onOffer_setLine n (Line.joinSends_onOffer _ _ _))
  | buffer w =>
    simp only [State.route]
    split
    · exact s.completeAtOnce_offers _ _
    · exact .of_same (s.onOffer_setLine n (Line.joinBuffers_onOffer _ _ _))
  | poll w =>
    simp only [State.route]
    split
    · exact s.completeAtOnce_offers _ _
    · exact .of_same (s.onOffer_setLine n (Line.joinPolls_onOffer _ _ _))

theorem State.dispatch_offers (s : State) (q : SqNo) (slot : Slot) (bytes : List Byte) :
    s.DispatcherOffers (s.dispatch q slot bytes) := by
  have named (e : Option Entry) (p : Producer) : (s.setEntry slot e).onOffer p = s.onOffer p := by cases p <;> rfl
  have after {e : Option Entry} {t : State} (h : (s.setEntry slot e).DispatcherOffers t) : s.DispatcherOffers t :=
    ⟨fun p hp => (h.others p hp).trans (named e p), fun hd => h.kept (by rwa [named])⟩
  unfold State.dispatch
  split
  · exact after (State.completeAtOnce_offers _ _ _)
  · exact after (State.route_offers _ _ _ _ _)

end Sys2Proof.Machine

/-! PROOFS of O11, the end: every effect of a command leaves each composed completion admitted or waiting. -/

namespace Sys2Proof.Machine

theorem State.offersInv_iff (s : State) :
    s.OffersInv ↔ s.TableInv ∧ s.AllLines Line.ControlListed ∧ s.AllLines Line.RestsDisabled ∧ s.OffersBut [] :=
  ⟨fun h => ⟨h.table, h.control, h.disabled, fun p hp _ => h.offers p hp, nofun, h.once⟩,
    fun ⟨table, control, disabled, offers⟩ => ⟨table, control, disabled, fun p hp => offers.others p hp nofun, offers.once⟩⟩

/-- A line with empty lists has nothing on offer. -/
theorem Line.onOffer_none {l : Line} (control : l.control = []) (unloaded : l.Unloaded) (p : Producer) :
    l.onOffer p = none := by
  obtain ⟨htx, hfiller, hpoll⟩ := unloaded
  cases p with
  | dispatcher | fence | event => rfl
  | control => simp [Line.onOffer, control, headResult]
  | transmitter => simp [Line.onOffer, htx, headResult]
  | data => rw [Line.onOffer, hfiller, hpoll]; exact ite_self _

theorem State.onOffer_none {s : State} (dispatched : s.dispatched = []) (fencesDone : s.fencesDone = [])
    (lines : ∀ n p, (s.line n).onOffer p = none) (p : Producer) : s.onOffer p = none := by
  cases hp : p.lineOf with
  | some n => rw [State.onOffer_line _ hp, lines]
  | none =>
    cases p with
    | dispatcher => simp [State.onOffer, dispatched]
    | fence => simp [State.onOffer, fencesDone]
    | event => rfl
    | control | data | transmitter => exact absurd hp nofun

theorem State.enterFaulted_offersBut (s : State) (code : FaultCode) (source : FaultSource) :
    (s.enterFaulted code source).OffersBut [] := by
  refine .of_empty rfl (State.onOffer_none rfl rfl fun n p => ?_)
  have line : (s.enterFaulted code source).line n = (s.line n).shutDown := by
    simp [State.enterFaulted, State.updateNotify, State.line]
  rw [line]
  exact Line.onOffer_none rfl ⟨rfl, rfl, rfl⟩ p

theorem State.takeReset_offersBut (s : State) (cause : ResetCause) (qbase : Addr) (high : Bool) :
    (s.takeReset cause qbase high).OffersBut [] := by
  refine .of_empty rfl (State.onOffer_none rfl rfl fun n p => ?_)
  have line : (s.takeReset cause qbase high).line n = .rest := by simp [State.line, State.takeReset, State.reset]
  rw [line]
  exact Line.onOffer_none rfl ⟨rfl, rfl, rfl⟩ p

/-- Lines that change without touching their modes and lists make the same offers. -/
theorem State.onOffer_map {s t : State} {f : Line → Line} (dispatched : t.dispatched = s.dispatched)
    (fencesDone : t.fencesDone = s.fencesDone) (lines : t.lines = s.lines.map f) (hf : ∀ l p, (f l).onOffer p = l.onOffer p)
    (p : Producer) : t.onOffer p = s.onOffer p := by
  cases hp : p.lineOf with
  | some n =>
    have line : t.line n = f (s.line n) := by simp [State.line, lines]
    rw [State.onOffer_line _ hp, State.onOffer_line _ hp, line, hf]
  | none =>
    cases p with
    | dispatcher => simp only [State.onOffer, dispatched]
    | fence => simp only [State.onOffer, fencesDone]
    | event => rfl
    | control | data | transmitter => exact absurd hp nofun

theorem Line.dropUnusedEvents_onOffer (block : Option Block) (l : Line) (p : Producer) :
    (l.dropUnusedEvents block).onOffer p = l.onOffer p := by
  unfold Line.dropUnusedEvents
  split <;> cases p <;> rfl

section

variable {s : State} (h : s.OffersBut [])
include h

theorem State.OffersBut.descriptorReadOver (k : Fin 4) (e : ReadEnd Record) : (s.descriptorReadOver k e).OffersBut [] := by
  unfold State.descriptorReadOver
  dsimp only
  split
  · exact h.same rfl (State.onOffer_congr rfl rfl rfl)
  · split
    · exact State.enterFaulted_offersBut _ _ _
    · split
      · exact h.same rfl (State.onOffer_congr rfl rfl rfl)
      · split
        · exact h.same rfl (State.onOffer_map rfl rfl rfl (Line.dropUnusedEvents_onOffer _))
        · exact State.enterFaulted_offersBut _ _ _

/-- A line's step and the offers its units make in it. -/
theorem State.OffersBut.updateLine (places : s.PlacesOk) (n : LineNo) {k : Line} (kept : (s.line n).Kept k)
    (mode : k.isPoll = (s.line n).isPoll ∨ (s.line n).Unloaded) : (s.updateLine n k).OffersBut [] := by
  refine State.OffersBut.settle (s := s.setLine n k) (h.congr rfl (fun p hp => ?_) (fun p hp _ offers => ?_) fun m => ?_)
    (places.setLine n kept.heldSlots) (closedProducers_line n)
  · exact s.onOffer_setLine_other k fun hn => hp (mem_lineProducers.mpr hn)
  · have hn := mem_lineProducers.mp hp
    rw [State.onOffer_line _ hn] at offers
    rw [State.onOffer_setLine_same _ _ hn]
    exact kept.onOffer mode offers
  · simp [mem_lineProducers, Producer.lineOf]

/-- STOP reaches every line at once, and their units make their offers (11 R180). -/
theorem State.OffersBut.stopped (places : s.PlacesOk) : (State.settle allLineProducers settleBound
    { s with ctl := { s.ctl with state := .draining }, lines := s.lines.map Line.stop }).OffersBut [] := by
  have line (n : LineNo) : State.line { s with
      ctl := { s.ctl with state := .draining }, lines := s.lines.map Line.stop } n = (s.line n).stop := by
    simp [State.line]
  refine State.OffersBut.settle (h.congr rfl (fun p hp => ?_) (fun p hp _ offers => ?_) fun m => ?_) ?_
    closedProducers_allLines
  · cases p with
    | dispatcher | fence | event => rfl
    | control n | data n | transmitter n => exact absurd (mem_allLineProducers.mpr ⟨n, rfl⟩) hp
  · obtain ⟨n, hn⟩ := mem_allLineProducers.mp hp
    rw [State.onOffer_line _ hn] at offers
    rw [State.onOffer_line _ hn, line]
    exact ((s.line n).stop_step).onOffer offers
  · simp [mem_allLineProducers, Producer.lineOf]
  · refine places.congr rfl rfl rfl rfl (fun _ => rfl) fun n => ?_
    rw [line]
    exact ((s.line n).stop_step).toKept.heldSlots

/-- A fetched record is dispatched, and the dispatcher makes its offers. -/
theorem State.OffersBut.recordFetched (q : SqNo) (slot : Slot) (bytes : List Byte)
    (places : (((s.fetchAdvanced q).dispatch q slot bytes).giveUpCredit q).PlacesOk) :
    (s.recordFetched q slot bytes).OffersBut [] := by
  rw [State.recordFetched_eq]
  refine State.OffersBut.settle ?_ places closedProducers_dispatcher
  obtain ⟨credit, hcredit⟩ := State.giveUpCredit_eq ((s.fetchAdvanced q).dispatch q slot bytes) q
  rw [hcredit]
  have offers := (s.fetchAdvanced q).dispatch_offers q slot bytes
  have same (p : Producer) : State.onOffer { (s.fetchAdvanced q).dispatch q slot bytes with
      fetcher := { ((s.fetchAdvanced q).dispatch q slot bytes).fetcher with credit := credit } } p =
      ((s.fetchAdvanced q).dispatch q slot bytes).onOffer p := State.onOffer_congr rfl rfl rfl p
  have before (p : Producer) : (s.fetchAdvanced q).onOffer p = s.onOffer p := State.onOffer_congr rfl rfl rfl p
  refine h.congr ?_ (fun p hp => ?_) (fun p hp _ hoff => ?_) fun n => by simp
  · have := ((s.fetchAdvanced q).dispatch_registers q slot bytes).backlog
    simp only [this]
    rfl
  · rw [same, offers.others p (by simpa using hp), before]
  · cases List.mem_singleton.mp hp
    rw [same]
    exact offers.kept (by rwa [before])

/-- A FENCE's completion is composed, and the fence logic makes its offers. -/
theorem State.OffersBut.fenceEnds (q : SqNo) (x : Slot × Result)
    (places : State.PlacesOk { s with fences := s.fences.set q none, fencesDone := s.fencesDone ++ [x] }) :
    (State.settle [.fence] settleBound
      { s with fences := s.fences.set q none, fencesDone := s.fencesDone ++ [x] }).OffersBut [] := by
  refine State.OffersBut.settle ?_ places closedProducers_fence
  refine h.congr rfl (fun p hp => ?_) (fun p hp _ hoff => ?_) fun n => by simp
  · cases p with
    | fence => exact absurd (List.mem_singleton_self _) hp
    | dispatcher | control | data | transmitter | event => rfl
  · cases List.mem_singleton.mp hp
    simp [State.onOffer]

/-- An event entry is offered: no other offer is touched, and the event unit did not wait before. -/
theorem State.OffersBut.eventOffered {n : LineNo} (unoffered : Producer.event n ∉ s.backlog.waiting) :
    (s.offer (.event n)).OffersBut [] := by
  unfold State.offer
  split
  · exact h.same rfl fun p => s.enterEvent_onOffer n p
  · refine ⟨fun p hp _ => ?_, nofun, ?_⟩
    · have same : State.onOffer { s with
          backlog := { s.backlog with waiting := s.backlog.waiting ++ [.event n] } } p = s.onOffer p :=
        State.onOffer_congr rfl rfl rfl p
      rw [same, h.others p hp (by simp)]
      simp [hp n]
    · simpa [List.nodup_append, h.once] using fun a ha => by rintro rfl; exact unoffered ha

/-- A waiting producer is granted the free slot, and the units of its line make the offers that follow (01 R20, R21). -/
theorem State.OffersBut.granted (places : s.PlacesOk) {p : Producer} (waits : p ∈ s.backlog.waiting) :
    (State.settle p.siblings settleBound (State.enterBacklog
      { s with backlog := { s.backlog with waiting := s.backlog.waiting.erase p, lastGranted := p } } p)).OffersBut [] := by
  have freed : State.PlacesOk
      { s with backlog := { s.backlog with waiting := s.backlog.waiting.erase p, lastGranted := p } } :=
    places.congr rfl rfl rfl rfl (fun _ => rfl) fun _ => rfl
  have same (q : Producer) : State.onOffer
      { s with backlog := { s.backlog with waiting := s.backlog.waiting.erase p, lastGranted := p } } q = s.onOffer q :=
    State.onOffer_congr rfl rfl rfl q
  have waiting := State.enterBacklog_waiting
    { s with backlog := { s.backlog with waiting := s.backlog.waiting.erase p, lastGranted := p } } p
  refine State.OffersBut.settle ⟨fun q hq hsib => ?_, fun q hsib hw => ?_, ?_⟩ (freed.enterBacklog p)
    (closedProducers_siblings p)
  · have hne : q ≠ p := by
      rintro rfl
      exact hsib (by cases q <;> simp_all [Producer.siblings, lineProducers])
    rw [State.onOffer_enterBacklog_other _ hsib, same, h.others q hq (by simp), waiting]
    exact (List.mem_erase_of_ne hne).symm
  · rw [waiting] at hw
    obtain ⟨hne, hmem⟩ := (List.Nodup.mem_erase_iff h.once).mp hw
    refine State.onOffer_enterBacklog_kept _ hne ?_
    rw [same]
    refine (h.others q ?_ (by simp)).mpr hmem
    rintro n rfl
    cases p <;> simp [Producer.siblings, lineProducers] at hsib
  · rw [waiting]
    exact h.once.erase p

end

/-- Every effect leaves each composed completion admitted or waiting, and nobody waiting without one. -/
theorem State.OffersBut.effect {s t : State} (h : s.OffersBut []) (table : s.TableInv) (disabled : s.AllLines Line.RestsDisabled)
    (he : s.Effect t) : t.OffersBut [] := by
  have places := table.placesOk
  have keeps {t : State} (waiting : t.backlog = s.backlog) (dispatched : t.dispatched = s.dispatched)
      (fencesDone : t.fencesDone = s.fencesDone) (lines : t.lines = s.lines) : t.OffersBut [] :=
    h.same (by rw [waiting]) (State.onOffer_congr dispatched fencesDone lines)
  cases he with
  | quiet same => exact keeps same.backlog same.dispatched same.fencesDone same.lines
  | transferEnds | started | loadEnds | posted | released | fetchIssued | portGranted => exact keeps rfl rfl rfl rfl
  | line n k reports inFlight _ kept mode =>
    have ported : (s.withPort reports inFlight).OffersBut [] := keeps rfl rfl rfl rfl
    exact ported.updateLine (places.congr rfl rfl rfl rfl (fun _ => rfl) fun _ => rfl) n kept
      (mode.imp id (disabled n))
  | query n p reports =>
    refine h.same rfl fun q => Eq.trans (State.onOffer_congr rfl rfl rfl q)
      (s.onOffer_setLine n (l := { s.line n with progress := p }) (fun q => ?_) q)
    cases q <;> rfl
  | stopped =>
    rw [State.drained_eq]
    exact (h.stopped places).same rfl (State.onOffer_congr rfl rfl rfl)
  | reset => exact State.takeReset_offersBut _ _ _ _
  | descriptorRead u k e =>
    have ended : s.transferOver.OffersBut [] := keeps rfl rfl rfl rfl
    exact ended.descriptorReadOver k e
  | fetched u q slot bytes inFlight kind =>
    have ended : State.OffersBut { s.transferOver with fetcher := { s.fetcher with outstanding := none } } [] :=
      keeps rfl rfl rfl rfl
    exact ended.recordFetched q slot bytes
      (State.PlacesOk.fetchDispatched places (table.reserved inFlight kind) (table.not_held inFlight kind) bytes)
  | fetchFailed | writeFailed => exact State.enterFaulted_offersBut _ _ _
  | fenceEnds q f held r => exact h.fenceEnds q (f.slot, r) (State.PlacesOk.fenceEnds places held r)
  | eventOffered n may =>
    refine h.eventOffered ?_
    unfold State.mayOfferEvent at may
    simp only [Bool.and_eq_true, Bool.not_eq_true', List.contains_eq_mem, decide_eq_false_iff_not] at may
    exact may.1.1.2
  | granted p _ waits => exact h.granted places waits
  | entryTaken b q e =>
    cases e with
    | completion => exact keeps rfl rfl rfl rfl
    | event cq n =>
      refine h.same rfl fun p => Eq.trans (State.onOffer_congr rfl rfl rfl p)
        (s.onOffer_setLine n (l := (s.line n).captured) (fun p => ?_) p)
      cases p <;> rfl
  | written u q =>
    obtain ⟨-, -, -, -, hlines, -, -, hbacklog, -⟩ := s.transferOver.completionWritten_frame q
    obtain ⟨hdispatched, hdone, -⟩ := s.transferOver.completionWritten_places q
    exact h.same (by rw [hbacklog]; rfl) (State.onOffer_congr hdispatched hdone hlines)
  | drained =>
    rw [State.drained_eq]
    exact keeps rfl rfl rfl rfl

theorem State.OffersInv.effect (s t : State) (h : s.OffersInv) (he : s.Effect t) : t.OffersInv := by
  rw [State.offersInv_iff] at *
  obtain ⟨table, control, disabled, offers⟩ := h
  exact ⟨State.TableInv.effect s t table he, lineInvariant_controlListed.effect control he,
    lineInvariant_restsDisabled.effect disabled he, offers.effect table disabled he⟩

/-- Settles O11: every effect of a command leaves each composed completion admitted or waiting, the control lists LISTED
behind their heads and the DISABLED lines without data records. -/
theorem offersKept : Obligations.OffersKept :=
  kept_by_step State.OffersInv.effect

end Sys2Proof.Machine

/-! PROOFS of O1 to O4 (the step, every command answers, the reset values), O12 and O14 (START, STOP and the resets) and O39
(the delay timer). -/

namespace Sys2Proof.Machine

/-! ### Every command answers and leaves the queue alone -/

/-- The outcome is a next state with the queue of `s`. -/
def State.Answers (s : State) (o : Host.Outcome State Fault Refusal) : Prop := ∃ t, o = .next t ∧ t.pending = s.pending

theorem State.Answers.next {s t : State} (h : t.pending = s.pending) : s.Answers (.next t) := ⟨t, rfl, h⟩

theorem State.Answers.still (s : State) : s.Answers (.next s) := .next rfl

theorem State.write_answers {s : State} {f : Controller → State} (h : (f s.ctl).pending = s.pending) :
    s.Answers (s.write f) := by
  unfold State.write
  split
  · exact .next h
  · exact .still s

theorem State.endTransfer_answers {s : State} {k : TransferKind → Bool}
    {act : Transfer → State → Host.Outcome State Fault Refusal} (h : ∀ t, s.Answers (act t s.transferOver)) :
    s.Answers (s.endTransfer k act) := by
  unfold State.endTransfer
  split
  · next t _ =>
    split
    · split
      · exact .next rfl
      · exact h t
    · exact .still s
  · exact .still s

theorem onLine_answers (n : LineNo) (f : Line → Option Line) (s : State) : s.Answers (onLine n f s) := by
  rw [onLine_next]
  refine .next ?_
  cases f (s.line n) <;> simp

theorem State.descriptorReadOver_pending (s : State) (k : Fin 4) (e : ReadEnd Record) :
    (s.descriptorReadOver k e).pending = s.pending := by
  unfold State.descriptorReadOver
  dsimp only
  split
  · rfl
  · split
    · rfl
    · split
      · rfl
      · split <;> rfl

theorem State.dispatch_pending (s : State) (q : SqNo) (slot : Slot) (bytes : List Byte) :
    (s.dispatch q slot bytes).pending = s.pending := by
  have routed (u : State) (n : LineNo) (b : Body) : (u.route q slot n b).pending = u.pending := by
    cases b with
    | fence | command => rfl
    | send | buffer | poll => simp only [State.route]; split_ifs <;> rfl
  unfold State.dispatch
  split
  · rfl
  · exact routed _ _ _

theorem State.recordFetched_pending (s : State) (q : SqNo) (slot : Slot) (bytes : List Byte) :
    (s.recordFetched q slot bytes).pending = s.pending := by
  obtain ⟨credit, hcredit⟩ := State.giveUpCredit_eq ((s.fetchAdvanced q).dispatch q slot bytes) q
  rw [State.recordFetched_eq, State.settle_pending, hcredit]
  exact State.dispatch_pending _ _ _ _

theorem State.completionWritten_pending (s : State) (q : CqNo) : (s.completionWritten q).pending = s.pending := by
  unfold State.completionWritten
  dsimp only
  obtain ⟨c, pin, h, -⟩ := State.noteWritten_eq _ q _
  rw [h]

theorem State.drained_pending (s : State) : s.drained.pending = s.pending := by rw [State.drained_eq]

theorem execStop_answers (upper : BitVec 24) (s : State) : s.Answers (execStop upper s) := by
  refine State.write_answers ?_
  split
  · rw [State.drained_pending]; simp
  · rfl
  · rfl

theorem execPost_answers (value : Word) (s : State) : s.Answers (execPost value s) := by
  refine State.write_answers ?_
  unfold State.takePost
  dsimp only
  split_ifs <;> rfl

theorem execRelease_answers (value : Word) (s : State) : s.Answers (execRelease value s) := by
  refine State.write_answers ?_
  unfold State.takeRelease
  dsimp only
  split_ifs <;> rfl

theorem execClaim_answers (lanes : Lanes) (s : State) : s.Answers (execClaim lanes s) := by
  unfold execClaim
  split
  · refine .next ?_
    cases claimChoice s.block s.notice <;> rfl
  · exact .next rfl

theorem execDescriptorReadEnd_answers (e : ReadEnd Record) (s : State) : s.Answers (execDescriptorReadEnd e s) := by
  refine State.endTransfer_answers fun t => ?_
  split
  · exact .next (State.descriptorReadOver_pending _ _ _)
  · exact .next rfl

theorem execFetchIssue_answers (s : State) : s.Answers (execFetchIssue s) := by
  unfold execFetchIssue
  split
  · split
    · exact .next rfl
    · exact .still s
  · exact .still s

theorem execRecordFetchEnd_answers (e : ReadEnd Record) (s : State) : s.Answers (execRecordFetchEnd e s) := by
  refine State.endTransfer_answers fun t => ?_
  split
  · cases e with
    | ok => exact .next (State.recordFetched_pending _ _ _ _)
    | busError => exact .next rfl
  · exact .next rfl

theorem execFenceWaitSetEmpty_answers (q : SqNo) (s : State) : s.Answers (execFenceWaitSetEmpty q s) := by
  unfold execFenceWaitSetEmpty
  split
  · split
    · exact .next (by simp)
    · exact .still s
  · exact .still s

theorem execQueryLine_answers (n : LineNo) (s : State) : s.Answers (execQueryLine n s) := by
  unfold execQueryLine
  dsimp only
  split
  · exact .next rfl
  · exact .still s

theorem execReportWriteEnd_answers (e : WriteEnd) (s : State) : s.Answers (execReportWriteEnd e s) := by
  refine State.endTransfer_answers fun t => ?_
  split
  · exact .next (by simp)
  · exact .next rfl

theorem execTxDataReadEnd_answers (n : LineNo) (e : ReadEnd (List Byte)) (cts : Bool) (s : State) :
    s.Answers (execTxDataReadEnd n e cts s) := by
  refine State.endTransfer_answers fun t => ?_
  cases e with
  | ok =>
    dsimp only
    split
    · exact .next (by simp)
    · exact .still s
  | busError => exact .next (by simp)

theorem execBacklogGrant_answers (s : State) : s.Answers (execBacklogGrant s) := by
  unfold execBacklogGrant
  split
  · split
    · exact .next (by simp)
    · exact .still s
  · exact .still s

theorem execWriterTakeEntry_answers (s : State) : s.Answers (execWriterTakeEntry s) := by
  unfold execWriterTakeEntry
  split
  · split
    · split
      · next e _ => cases e <;> exact .next rfl
      · exact .still s
    · exact .still s
  · exact .still s

theorem execCompletionWriteEnd_answers (e : WriteEnd) (s : State) : s.Answers (execCompletionWriteEnd e s) := by
  refine State.endTransfer_answers fun t => ?_
  split
  · cases e with
    | ok => exact .next (State.completionWritten_pending _ _)
    | busError => exact .next rfl
  · exact .next rfl

theorem execPortGrant_answers (s : State) : s.Answers (execPortGrant s) := by
  unfold execPortGrant
  split
  · exact .next rfl
  · exact .still s

theorem ite_pending {p : Prop} [Decidable p] {s t u : State} (ht : t.pending = s.pending) (hu : u.pending = s.pending) :
    (if p then t else u).pending = s.pending := by
  split
  · exact ht
  · exact hu

/-- Settles O2: each of the 58 commands answers a next state with the queue it found. -/
theorem execAnswersAndKeepsQueue : Obligations.ExecAnswersAndKeepsQueue := by
  intro c s
  change s.Answers (exec c s)
  cases c with
  | start | controlUnknownCommand | qbaseLoWrite | qbaseHiWrite | endserv =>
    unfold exec
    refine State.write_answers ?_
    exact ite_pending rfl rfl
  | stop upper => exact execStop_answers upper s
  | reset | statusWrite =>
    unfold exec
    refine State.write_answers ?_
    rfl
  | controllerResetTake => exact ⟨_, (apply_ite _ _ _ _).symm, ite_pending rfl rfl⟩
  | deviceResetAssert => exact ⟨_, (apply_ite _ _ _ _).symm, ite_pending rfl rfl⟩
  | deviceResetRelease => exact ⟨_, (apply_ite _ _ _ _).symm, ite_pending rfl rfl⟩
  | post value => exact execPost_answers value s
  | release value => exact execRelease_answers value s
  | claim lanes => exact execClaim_answers lanes s
  | registerWriteIgnored => exact .still s
  | descriptorReadEnd e => exact execDescriptorReadEnd_answers e s
  | fetchIssue => exact execFetchIssue_answers s
  | recordFetchEnd e => exact execRecordFetchEnd_answers e s
  | fenceWaitSetEmpty q => exact execFenceWaitSetEmpty_answers q s
  | queryLine n => exact execQueryLine_answers n s
  | reportWriteEnd e => exact execReportWriteEnd_answers e s
  | txDataReadEnd n e cts => exact execTxDataReadEnd_answers n e cts s
  | rxBufferWriteEnd n e | replyWriteEnd n e =>
    unfold exec
    refine State.endTransfer_answers fun t => ?_
    cases e <;> exact .next (by simp)
  | eventOffer n => exact ⟨_, (apply_ite _ _ _ _).symm, ite_pending (by simp) rfl⟩
  | backlogGrant => exact execBacklogGrant_answers s
  | writerTakeEntry => exact execWriterTakeEntry_answers s
  | completionWriteEnd e => exact execCompletionWriteEnd_answers e s
  | drainComplete => exact .next s.drained_pending
  | portGrant => exact execPortGrant_answers s
  | delayTimerExpire q => exact ⟨_, (apply_ite _ _ _ _).symm, ite_pending rfl rfl⟩
  | configureLine | enableLine | disableLine | disabledStep | abortLine | resumeRx | flushRx | characterComplete
  | idleGapTimerFire | fillerTakeEntry | txTakeRecord | breakEnd | txCharacterSent | gapEnd | ctsAssert
  | ctsWaitTimeout | pollTakeRecord | guardEnd | pollTakeEntry | replyTimeout | replyGapFire | attemptEnd | fallingEdge
  | startCheckSample | dataBitSample | waitMarkEnd | awaitEntry => exact onLine_answers _ _ s

/-- Settles O1: by the definition of a step. -/
theorem stepRunsFrontCommand : Obligations.StepRunsFrontCommand := by
  refine ⟨fun c rest s => rfl, fun s h => ?_⟩
  unfold step
  rw [h]

/-! ### The reset values -/

theorem State.reset_line (n : LineNo) : State.reset.line n = .rest := by simp [State.line, State.reset]

/-- A reset of the part at its reset values finds them. -/
theorem State.takeReset_reset : State.reset.takeReset .power 0 true = State.reset := rfl

/-- Settles O3: the reset values, register by register and line by line. -/
theorem resetValues : Obligations.ResetValues := by
  refine ⟨rfl, rfl, rfl, rfl, rfl, rfl, rfl, rfl, fun i => by simp [State.reset, State.entry], rfl, rfl, rfl,
    fun q => by simp [State.reset, Fetcher.rest], rfl, rfl, fun q => by simp [State.reset, Writer.rest], rfl,
    fun q => by simp [State.reset, Notification.rest], rfl, rfl, rfl, rfl, rfl, rfl, fun n => ?_⟩
  dsimp only
  rw [State.reset_line]
  exact ⟨rfl, rfl, rfl, rfl, rfl, rfl, rfl, rfl, rfl, rfl, rfl, rfl, rfl, rfl, rfl, rfl, rfl, rfl, rfl, rfl, rfl, rfl⟩

theorem State.reset_tableInv : State.reset.TableInv where
  controller := State.reset.takeReset_controllerInv .power 0 true
  places := State.reset.takeReset_placesOk .power 0 true
  fetching := nofun
  unheld := nofun
  idle _ i := by simp [State.reset, State.entry]

/-- Settles O4: each invariant of the reset values, by what a reset leaves. -/
theorem invariantsAtReset : Obligations.InvariantsAtReset := by
  refine ⟨State.reset.notifyFollows_iff.mpr (by decide), ?_, State.reset_tableInv.controller,
    State.reset.takeReset_ringsInv .power 0 true, .of_rest rfl nofun, State.reset_tableInv, ?_, fun n => ?_⟩
  · rw [State.withinBounds_iff]
    refine ⟨rfl, Nat.zero_le _, fun q => by simp [State.reset, Notification.rest], fun n => ?_⟩
    rw [State.reset_line]
    exact lineInvariant_bounded.rest
  · rw [State.offersInv_iff]
    refine ⟨State.reset_tableInv, fun n => ?_, fun n => ?_, State.reset.takeReset_offersBut .power 0 true⟩ <;>
      rw [State.reset_line]
    · exact lineInvariant_controlListed.rest
    · exact lineInvariant_restsDisabled.rest
  · dsimp only
    rw [State.reset_line]
    exact lineInvariant_windowOk.rest

/-! ### START, STOP, the resets and the delay timer -/

/-- Settles O12: by the controller's state. -/
theorem startAndStopWrites : Obligations.StartAndStopWrites := by
  intro u s hopen
  dsimp only [exec]
  rw [execStart, execStop, State.write_open _ _ hopen, State.write_open _ _ hopen]
  refine ⟨fun h => ?_, fun h => ?_, fun h => ?_, fun h => ?_⟩
  · rw [if_pos h]
    simp [descriptorRead]
  · rw [if_neg h]
    rfl
  · rw [h]
  · rcases h with h | h | h <;> simp only [h, State.misplaced]

/-- Settles O14: by the levels of RESETn and the transfer in flight. -/
theorem resets : Obligations.Resets := by
  refine ⟨fun u s hopen => ?_, fun s hwaits hhigh => ⟨fun hport => ?_, fun hport => ?_⟩,
    fun s hhigh => ?_, fun s hlow => ?_⟩
  · unfold exec execReset
    rw [State.write_open _ _ hopen]
  · exact if_pos ⟨hwaits, hhigh, hport⟩
  · exact if_neg fun h => hport h.2.2
  · exact if_pos hhigh
  · exact if_neg (by simp [hlow])

/-- Settles O39: by whether the delay timer runs. -/
theorem delayTimerExpires : Obligations.DelayTimerExpires := by
  intro q s
  refine ⟨fun h => if_neg (by rw [h]; simp), fun h => ?_⟩
  refine ⟨_, if_pos (Option.isSome_iff_ne_none.mpr h), State.updateNotify_follows _, ?_⟩
  have hflag : (s.notice.cqs[q].flag || decide (1 ≤ s.notice.cqs[q].newCount)) =
      if 1 ≤ s.notice.cqs[q].newCount then true else s.notice.cqs[q].flag := by
    split
    · next hn => rw [decide_eq_true hn, Bool.or_true]
    · next hn => rw [decide_eq_false hn, Bool.or_false]
  rw [hflag]
  rfl

end Sys2Proof.Machine

/-! PROOFS of the register window: O16 (STATUS, INSERVICE and the lanes), O18 (QBASE), O21 (CLAIM) and O24 (the accesses that
are ignored). -/

namespace Sys2Proof.Machine

/-! ### Bits and fields of a word, as arithmetic -/

theorem getLsbD_eq_decide {w : Nat} (x : BitVec w) (i : Nat) : x.getLsbD i = decide (x.toNat / 2 ^ i % 2 = 1) :=
  Nat.testBit_eq_decide_div_mod_eq

theorem getLsbD_eq_iff {w : Nat} (x : BitVec w) (i : Nat) (b : Bool) : x.getLsbD i = b ↔ x.toNat / 2 ^ i % 2 = b.toNat := by
  rw [getLsbD_eq_decide]
  cases b <;> simp

theorem toNat_extractLsb'_eq {w : Nat} (x : BitVec w) (at_ size : Nat) :
    (x.extractLsb' at_ size).toNat = x.toNat / 2 ^ at_ % 2 ^ size := by
  rw [BitVec.extractLsb'_toNat, Nat.shiftRight_eq_div_pow]

/-- The bits of a number above its size are 0. -/
theorem getLsbD_of_lt {w : Nat} {x : BitVec w} {k i : Nat} (h : x.toNat < 2 ^ k) (hi : k ≤ i) : x.getLsbD i = false :=
  Nat.testBit_lt_two_pow (Nat.lt_of_lt_of_le h (Nat.pow_le_pow_right (by decide) hi))

/-! ### STATUS and INSERVICE (11 R187, 09 R165) -/

theorem ControllerState.code_le (c : ControllerState) : c.code ≤ 4 := by cases c <;> decide

theorem FaultCode.code_le (c : FaultCode) : c.code ≤ 4 := by cases c <;> decide

theorem FaultSource.number_le (c : FaultSource) : c.number ≤ 3 := by
  cases c with
  | none => exact Nat.zero_le _
  | sq q | cq q => exact Nat.le_of_lt_succ q.isLt

theorem FaultSource.kindCode_le (c : FaultSource) : c.kindCode ≤ 2 := by cases c <;> simp [FaultSource.kindCode]

theorem ResetCause.code_le (c : ResetCause) : c.code ≤ 1 := by cases c <;> decide

theorem ControllerState.ofCode (c : ControllerState) :
    [ControllerState.stopped, .loading, .running, .draining, .faulted][c.code]? = some c := by cases c <;> rfl

theorem FaultCode.ofCode (c : FaultCode) :
    [FaultCode.none, .descriptorRead, .descriptorInvalid, .sqFetch, .cqWrite][c.code]? = some c := by cases c <;> rfl

/-- STATUS as a number: its fields do not overlap and none is cut. -/
theorem statusWord_toNat (c : Controller) :
    (statusWord c).toNat = c.state.code + 16 * c.faultCode.code + 256 * c.faultSource.number +
      1024 * c.faultSource.kindCode + 65536 * c.misplacedWrite.toNat + 131072 * c.rangeError.toNat +
      16777216 * c.cause.code := by
  have h1 := c.state.code_le
  have h2 := c.faultCode.code_le
  have h3 := c.faultSource.number_le
  have h4 := c.faultSource.kindCode_le
  have h5 := c.misplacedWrite.toNat_le
  have h6 := c.rangeError.toNat_le
  have h7 := c.cause.code_le
  exact Nat.mod_eq_of_lt (by omega)

/-- The fields of STATUS (11 Table 11.6). -/
theorem statusWord_fields (c : Controller) :
    ((statusWord c).extractLsb' 0 3).toNat = c.state.code ∧ ((statusWord c).extractLsb' 4 3).toNat = c.faultCode.code ∧
    ((statusWord c).extractLsb' 8 2).toNat = c.faultSource.number ∧
    ((statusWord c).extractLsb' 10 2).toNat = c.faultSource.kindCode ∧
    ((statusWord c).extractLsb' 24 1).toNat = c.cause.code := by
  have h1 := c.state.code_le
  have h2 := c.faultCode.code_le
  have h3 := c.faultSource.number_le
  have h4 := c.faultSource.kindCode_le
  have h5 := c.misplacedWrite.toNat_le
  have h6 := c.rangeError.toNat_le
  have h7 := c.cause.code_le
  simp only [toNat_extractLsb'_eq, statusWord_toNat]
  refine ⟨?_, ?_, ?_, ?_, ?_⟩ <;> omega

theorem statusWord_flags (c : Controller) :
    (statusWord c).getLsbD 16 = c.misplacedWrite ∧ (statusWord c).getLsbD 17 = c.rangeError := by
  have h1 := c.state.code_le
  have h2 := c.faultCode.code_le
  have h3 := c.faultSource.number_le
  have h4 := c.faultSource.kindCode_le
  have h5 := c.misplacedWrite.toNat_le
  have h6 := c.rangeError.toNat_le
  rw [getLsbD_eq_iff, getLsbD_eq_iff, statusWord_toNat]
  constructor <;> omega

/-- Every other bit of STATUS reads 0. -/
theorem statusWord_reserved (c : Controller) {i : Nat}
    (h : i = 3 ∨ i = 7 ∨ 12 ≤ i ∧ i ≤ 15 ∨ 18 ≤ i ∧ i ≤ 23 ∨ 25 ≤ i) : (statusWord c).getLsbD i = false := by
  have h1 := c.state.code_le
  have h2 := c.faultCode.code_le
  have h3 := c.faultSource.number_le
  have h4 := c.faultSource.kindCode_le
  have h5 := c.misplacedWrite.toNat_le
  have h6 := c.rangeError.toNat_le
  have h7 := c.cause.code_le
  have named (hi : i < 25) : (statusWord c).getLsbD i = false := by
    rw [getLsbD_eq_decide, decide_eq_false_iff_not, statusWord_toNat]
    interval_cases i <;> omega
  by_cases hi : 25 ≤ i
  · exact getLsbD_of_lt (by rw [statusWord_toNat]; omega) hi
  · exact named (by omega)

theorem topLevel_le_five (set : BitVec 5) : topLevel set ≤ 5 := by
  unfold topLevel; split_ifs <;> decide

theorem inserviceWord_toNat (set : BitVec 5) : (inserviceWord set).toNat = 2 * set.toNat + 256 * topLevel set := by
  have h := topLevel_le_five set
  have hset := set.isLt
  exact Nat.mod_eq_of_lt (by omega)

/-- Level n is bit n of INSERVICE, its bits 8 to 10 the top, and every other bit reads 0. -/
theorem inserviceWord_fields (set : BitVec 5) :
    (∀ k, 1 ≤ k → k ≤ 5 → (inserviceWord set).getLsbD k = inService set k) ∧
    ((inserviceWord set).extractLsb' 8 3).toNat = topLevel set ∧
    ∀ i, i = 0 ∨ i = 6 ∨ i = 7 ∨ 11 ≤ i → (inserviceWord set).getLsbD i = false := by
  have h := topLevel_le_five set
  have hset := set.isLt
  refine ⟨fun k h1 h5 => ?_, ?_, fun i hi => ?_⟩
  · simp only [inService, h1, decide_true, Bool.true_and, getLsbD_eq_decide, inserviceWord_toNat, decide_eq_decide]
    interval_cases k <;> omega
  · rw [toNat_extractLsb'_eq, inserviceWord_toNat]
    omega
  · have named (hlt : i < 11) : (inserviceWord set).getLsbD i = false := by
      rw [getLsbD_eq_decide, decide_eq_false_iff_not, inserviceWord_toNat]
      interval_cases i <;> omega
    by_cases hlt : 11 ≤ i
    · exact getLsbD_of_lt (by rw [inserviceWord_toNat]; omega) hlt
    · exact named (by omega)

section

variable {c : Controller} (h : c.resetHigh = true) (set : BitVec 5)
include h

theorem readRegister_status : readRegister c set 2 = statusWord c := by simp [readRegister, h]

theorem readRegister_inservice : readRegister c set 9 = inserviceWord set := by simp [readRegister, h]

/-- CONTROL, POST, RELEASE, ENDSERV and the offsets from 28H on read 0. -/
theorem readRegister_unread {k : Fin 16} (hk : k = 1 ∨ k = 5 ∨ k = 6 ∨ k = 8 ∨ 10 ≤ k) : readRegister c set k = 0 := by
  unfold readRegister
  rw [if_neg (by simp [h])]
  match k, hk with
  | 1, _ | 5, _ | 6, _ | 8, _ | 10, _ | 11, _ | 12, _ | 13, _ | 14, _ | 15, _ => rfl
  | 0, hk | 2, hk | 3, hk | 4, hk | 7, hk | 9, hk => exact absurd hk (by decide)
  | ⟨_ + 16, hbig⟩, _ => exact absurd hbig (by omega)

end

/-- A lane is read or not, byte by byte. -/
theorem laneMask_bit (lanes : Lanes) {i : Nat} (hi : i < 32) : (laneMask lanes).getLsbD i = lanes.getLsbD (i / 8) := by
  have all : ∀ (lanes : Lanes) (i : Fin 32), (laneMask lanes).getLsbD i.val = lanes.getLsbD (i.val / 8) := by decide
  exact all lanes ⟨i, hi⟩

/-- Settles O16: the words STATUS and INSERVICE field by field, the registers that read 0, and the lanes. -/
theorem statusAndInservice : Obligations.StatusAndInservice := by
  refine ⟨fun value s hopen => ?_, fun c set => ⟨fun hhigh => ?_, fun hlow k => readRegister_resetLow hlow set k,
    fun k lanes i hi => ⟨laneMask_bit lanes hi, ?_⟩⟩⟩
  · have cleared (flag bit : Bool) : (flag && !bit) = if bit then false else flag := by cases flag <;> cases bit <;> rfl
    dsimp only [exec, execStatusWrite]
    rw [State.write_open _ _ hopen, cleared, cleared]
  · dsimp only
    rw [readRegister_status hhigh, readRegister_inservice hhigh]
    obtain ⟨hstate, hcode, hnumber, hkind, hcause⟩ := statusWord_fields c
    obtain ⟨hmisplaced, hrange⟩ := statusWord_flags c
    obtain ⟨hlevels, htop, hzero⟩ := inserviceWord_fields set
    have source {n k : Nat} (hn : c.faultSource.number = n) (hk : c.faultSource.kindCode = k) :
        (statusWord c).extractLsb' 8 2 = BitVec.ofNat 2 n ∧ (statusWord c).extractLsb' 10 2 = BitVec.ofNat 2 k :=
      ⟨BitVec.eq_of_toNat_eq (by rw [hnumber, ← hn, BitVec.toNat_ofNat, Nat.mod_eq_of_lt (Nat.lt_succ_of_le c.faultSource.number_le)]),
        BitVec.eq_of_toNat_eq (by
          rw [hkind, ← hk, BitVec.toNat_ofNat, Nat.mod_eq_of_lt (Nat.lt_of_le_of_lt c.faultSource.kindCode_le (by decide))])⟩
    refine ⟨hstate, hcode, hnumber, hkind, by rw [hstate]; exact c.state.ofCode, by rw [hcode]; exact c.faultCode.ofCode,
      fun q hq => ?_, fun q hq => ?_, fun hq => ?_, hmisplaced, hrange, hcause, hlevels, htop,
      fun i hi => statusWord_reserved c hi, hzero, fun k hk => readRegister_unread hhigh set hk⟩
    · exact source (by rw [hq]; rfl) (by rw [hq]; rfl)
    · exact source (by rw [hq]; rfl) (by rw [hq]; rfl)
    · exact source (by rw [hq]; rfl) (by rw [hq]; rfl)
  · rw [readLanes, BitVec.getLsbD_and, laneMask_bit lanes hi, Bool.and_comm]

/-! ### QBASE (11 R188) -/

theorem readRegister_qbaseLo {c : Controller} (h : c.resetHigh = true) (set : BitVec 5) :
    readRegister c set 3 = BitVec.ofNat 32 (c.qbase.toNat % 4294967296) := by simp [readRegister, h]

theorem readRegister_qbaseHi {c : Controller} (h : c.resetHigh = true) (set : BitVec 5) :
    readRegister c set 4 = BitVec.ofNat 32 (c.qbase.toNat / 4294967296) := by simp [readRegister, h]

theorem qbaseLo_bit (qbase : Addr) (v : Word) {i : Nat} (hi : i < 40) :
    (qbase.extractLsb' 32 8 ++ (v.extractLsb' 7 25 ++ 0#7)).getLsbD i =
      if i < 7 then false else if i < 32 then v.getLsbD i else qbase.getLsbD i := by
  rw [BitVec.getLsbD_append, BitVec.getLsbD_append]
  by_cases h32 : i < 32
  · by_cases h7 : i < 7
    · simp [h32, h7]
    · have hbit : 7 + (i - 7) = i := by omega
      have hlt : i - 7 < 25 := by omega
      simp [h32, h7, hlt, hbit]
  · have hbit : 32 + (i - 32) = i := by omega
    have hlt : i - 32 < 8 := by omega
    have h7 : ¬ i < 7 := by omega
    simp [h32, h7, hlt, hbit]

theorem qbaseHi_bit (qbase : Addr) (v : Word) {i : Nat} (hi : i < 40) :
    (v.extractLsb' 0 8 ++ qbase.extractLsb' 0 32).getLsbD i =
      if i < 32 then qbase.getLsbD i else v.getLsbD (i - 32) := by
  rw [BitVec.getLsbD_append]
  by_cases h32 : i < 32
  · simp [h32]
  · have hlt : i - 32 < 8 := by omega
    simp [h32, hlt]

/-- Settles O18: bit by bit. -/
theorem qbaseWrites : Obligations.QbaseWrites := by
  refine ⟨fun c set i hhigh haligned hi => ⟨?_, ?_⟩, fun v s hopen => ?_⟩
  · have low (h7 : i < 7) : c.qbase.getLsbD i = false := (toNat_mod_128_iff c.qbase).mp haligned i h7
    have bit : (readRegister c set 3).getLsbD i = c.qbase.getLsbD i := by
      rw [readRegister_qbaseLo hhigh, getLsbD_eq_decide, getLsbD_eq_decide, BitVec.toNat_ofNat]
      interval_cases i <;> simp only [decide_eq_decide] <;> omega
    rw [bit]
    split
    · next h7 => exact low h7
    · rfl
  · have hlt := c.qbase.isLt
    rw [readRegister_qbaseHi hhigh]
    have hword : (BitVec.ofNat 32 (c.qbase.toNat / 4294967296)).toNat = c.qbase.toNat / 2 ^ 32 := Nat.mod_eq_of_lt (by omega)
    split
    · rw [getLsbD_eq_decide, getLsbD_eq_decide, hword, Nat.div_div_eq_div_mul, ← Nat.pow_add]
    · next h8 => exact getLsbD_of_lt (k := 8) (by rw [hword]; omega) (by omega)
  · dsimp only [exec, execQbaseLoWrite, execQbaseHiWrite]
    rw [State.write_open _ _ hopen, State.write_open _ _ hopen]
    refine ⟨fun hstate => ⟨s.ctl.qbase.extractLsb' 32 8 ++ (v.extractLsb' 7 25 ++ 0#7),
        v.extractLsb' 0 8 ++ s.ctl.qbase.extractLsb' 0 32, by rw [if_pos hstate], by rw [if_pos hstate], fun i hi => ?_,
        fun i hi => ?_⟩,
      fun hstate => ⟨by rw [if_neg hstate]; rfl, by rw [if_neg hstate]; rfl⟩⟩
    · exact qbaseLo_bit _ _ hi
    · exact qbaseHi_bit _ _ hi

/-! ### CLAIM (09 R161, R162) -/

theorem claimChoice_of_fault {block : Option Block} {nt : Notification} (h : faultEligible nt = true) :
    claimChoice block nt = .fault := by
  unfold claimChoice; rw [if_pos h]

/-- CQ `q` goes before CQ `p` in the choice: a higher level, or the same and a lower number. -/
def goesBefore (block : Option Block) (q p : CqNo) : Prop :=
  cqLevel block p < cqLevel block q ∨ cqLevel block p = cqLevel block q ∧ q.val ≤ p.val

theorem goesBefore_antisymm {block : Option Block} {q p : CqNo} (h : goesBefore block q p) (k : goesBefore block p q) :
    q = p := by
  unfold goesBefore at *
  exact Fin.ext (by omega)

/-- The best of a list in rising order, behind a best so far that stands before it. -/
theorem foldl_betterCq_best {block : Option Block} (qs : List CqNo) (b : CqNo) (sorted : (b :: qs).Pairwise (· < ·)) :
    ∃ r, qs.foldl (betterCq block) (some b) = some r ∧ ∀ p ∈ b :: qs, goesBefore block r p := by
  induction qs generalizing b with
  | nil => exact ⟨b, rfl, fun p hp => by cases List.mem_singleton.mp hp; exact .inr ⟨rfl, Nat.le_refl _⟩⟩
  | cons q qs ih =>
    rw [List.pairwise_cons, List.pairwise_cons] at sorted
    obtain ⟨hb, hq, hqs⟩ := sorted
    have hbq : b.val < q.val := hb q (by simp)
    simp only [List.foldl_cons, betterCq]
    split
    · next hlevel =>
      obtain ⟨r, hr, hbest⟩ := ih q (List.pairwise_cons.mpr ⟨hq, hqs⟩)
      refine ⟨r, hr, fun p hp => ?_⟩
      rcases List.mem_cons.mp hp with rfl | hp
      · have := hbest q (by simp)
        unfold goesBefore at *
        omega
      · exact hbest p hp
    · next hlevel =>
      obtain ⟨r, hr, hbest⟩ := ih b (List.pairwise_cons.mpr ⟨fun p hp => hb p (by simp [hp]), hqs⟩)
      refine ⟨r, hr, fun p hp => ?_⟩
      rcases List.mem_cons.mp hp with rfl | hp
      · exact hbest p (by simp)
      · rcases List.mem_cons.mp hp with rfl | hp
        · have := hbest b (by simp)
          unfold goesBefore at *
          omega
        · exact hbest p (by simp [hp])

/-- A claimable CQ that goes before all claimable ones is the best. -/
theorem bestCq_eq {block : Option Block} {nt : Notification} {q : CqNo} (h : claimable block nt q = true)
    (first : ∀ p, claimable block nt p = true → goesBefore block q p) : bestCq block nt = some q := by
  have mem (p : CqNo) : p ∈ ringNumbers.filter (claimable block nt) ↔ claimable block nt p = true := by
    simp [mem_ringNumbers]
  have sorted : (ringNumbers.filter (claimable block nt)).Pairwise (· < ·) :=
    List.Pairwise.filter _ (by decide)
  unfold bestCq
  cases hqs : ringNumbers.filter (claimable block nt) with
  | nil => rw [← mem, hqs] at h; exact absurd h nofun
  | cons b qs =>
    rw [hqs] at sorted
    obtain ⟨r, hr, hbest⟩ := foldl_betterCq_best (block := block) qs b sorted
    have hbetter := foldl_betterCq_mem (block := block) qs (some b) hr
    have hclaim : claimable block nt r = true := by
      rw [← mem, hqs]
      rcases hbetter with heq | hmem
      · cases heq; simp
      · simp [hmem]
    rw [List.foldl_cons]
    change qs.foldl (betterCq block) (some b) = some q
    rw [hr, goesBefore_antisymm (hbest q (by rw [← hqs, mem]; exact h)) (first r hclaim)]

theorem bestCq_none {block : Option Block} {nt : Notification} (h : ∀ p, claimable block nt p = false) :
    bestCq block nt = none := by
  unfold bestCq
  rw [List.filter_eq_nil_iff.mpr fun p _ => by simp [h p]]
  rfl

theorem exec_claim_open (lanes : Lanes) (s : State) (h : s.ctl.windowOpen = true) :
    exec (.claim lanes) s = .next { (s.takeClaim (claimChoice s.block s.notice)).updateNotify with
      ctl := { (s.takeClaim (claimChoice s.block s.notice)).updateNotify.ctl with
        busWord := claimWord s.block s.notice (claimChoice s.block s.notice) &&& laneMask lanes } } :=
  if_pos h

/-- Settles O21: the choice is FAULT, the best claimable CQ, or NONE; each takes effect and answers its word. -/
theorem claimRead : Obligations.ClaimRead := by
  intro lanes s hopen eligible claimed level answers
  have hexec := exec_claim_open lanes s hopen
  have hfault : faultEligible s.notice = true ↔ eligible := faultEligible_iff _
  have hclaimed (q : CqNo) : claimable s.block s.notice q = true ↔ claimed q := claimable_iff _ _ _
  have follows (c : Claim) : State.NotifyFollows { (s.takeClaim c).updateNotify with
      ctl := { (s.takeClaim c).updateNotify.ctl with busWord := claimWord s.block s.notice c &&& laneMask lanes } } :=
    ((s.takeClaim c).updateNotify_follows).congr rfl rfl
  refine ⟨fun h => ?_, fun q h hq hfirst => ?_, fun h hnone => ?_⟩
  · rw [claimChoice_of_fault (hfault.mpr h)] at hexec
    exact ⟨_, hexec, follows .fault, rfl⟩
  · have choice : claimChoice s.block s.notice = .cq q := by
      unfold claimChoice
      rw [if_neg fun hf => h (hfault.mp hf), bestCq_eq ((hclaimed q).mpr hq) fun p hp => hfirst p ((hclaimed p).mp hp)]
    rw [choice] at hexec
    exact ⟨_, hexec, follows (.cq q), rfl⟩
  · have choice : claimChoice s.block s.notice = .nothing := by
      unfold claimChoice
      rw [if_neg fun hf => h (hfault.mp hf),
        bestCq_none fun p => Bool.eq_false_iff.mpr fun hp => hnone p ((hclaimed p).mp hp)]
    rw [choice] at hexec
    refine ⟨_, hexec, follows .nothing, ?_⟩
    simp [State.takeClaim, State.updateNotify, claimWord]

/-! ### Accesses that are ignored (11 R183 to R185) -/

theorem exec_registerWrite_closed (k : Fin 16) (v : Word) {s : State} (h : s.ctl.windowOpen = false) :
    exec (registerWrite k v) s = .next s := by
  unfold registerWrite
  split
  · rfl
  · split <;>
      simp only [exec, execStart, execStop, execReset, execControlUnknownCommand, State.write_closed _ _ h]
  · simp only [exec, execStatusWrite, State.write_closed _ _ h]
  · simp only [exec, execQbaseLoWrite, State.write_closed _ _ h]
  · simp only [exec, execQbaseHiWrite, State.write_closed _ _ h]
  · simp only [exec, execPost, State.write_closed _ _ h]
  · simp only [exec, execRelease, State.write_closed _ _ h]
  · rfl
  · simp only [exec, execEndserv, State.write_closed _ _ h]
  · rfl
  · rfl

theorem exec_registerWrite_readOnly {k : Fin 16} (hk : k = 0 ∨ k = 7 ∨ k = 9 ∨ 10 ≤ k) (v : Word) (s : State) :
    exec (registerWrite k v) s = .next s := by
  match k, hk with
  | 0, _ | 7, _ | 9, _ | 10, _ | 11, _ | 12, _ | 13, _ | 14, _ | 15, _ => rfl
  | 1, hk | 2, hk | 3, hk | 4, hk | 5, hk | 6, hk | 8, hk => exact absurd hk (by decide)
  | ⟨_ + 16, hbig⟩, _ => exact absurd hbig (by omega)

/-- Settles O24: register by register. -/
theorem ignoredAccesses : Obligations.IgnoredAccesses := by
  refine ⟨fun w s => rfl, fun k v s hk => exec_registerWrite_readOnly hk v s, fun k lanes v s hl => ?_, fun k v => rfl,
    fun s hclosed => ⟨fun k v => exec_registerWrite_closed k v hclosed, fun lanes => ?_⟩⟩
  · have partly : registerWriteLanes k lanes v = .registerWriteIgnored (.partialWord k lanes v) := if_neg hl
    rw [partly]
    rfl
  · exact if_neg (by simp [hclosed])

end Sys2Proof.Machine

/-! PROOFS of O26 (the examination of a descriptor block), O28 (the checks of a record in their order) and O29 (what an accepted
record is). -/

namespace Sys2Proof.Machine

/-! ### Descriptors (08 R138) -/

theorem ringFits_iff (base size slotSize : Nat) :
    ringFits base size slotSize = true ↔ 4 ≤ size ∧ size ≤ 1024 ∧ base % slotSize = 0 ∧ base < 2 ^ 40 ∧
      base + slotSize * size ≤ 2 ^ 40 := by
  have htop : Config.addressTop = 2 ^ 40 := rfl
  simp [ringFits, htop, Nat.mul_comm slotSize]

theorem NotifyLevel.ofCode_isSome (q : Nat) : (NotifyLevel.ofCode q).isSome = true ↔ 1 ≤ q ∧ q ≤ 4 := by
  rcases q with _ | _ | _ | _ | _ | q <;> simp [NotifyLevel.ofCode]

theorem NotifyLevel.code_of_ofCode {q : Nat} {level : NotifyLevel} (h : NotifyLevel.ofCode q = some level) :
    level.code = q := by
  unfold NotifyLevel.ofCode at h
  split at h <;> cases h <;> rfl

/-- An SQ descriptor passes exactly if 08 R138 lets it pass, and is read field by field. -/
theorem sqDescriptor_fits (bytes : List Byte) (q : SqNo) :
    ((sqDescriptor bytes q).isSome = true ↔ SqDescriptorFits bytes q) ∧
    ∀ d, sqDescriptor bytes q = some d → d.size = field (descriptorBytes bytes q.val) 8 2 ∧
      (d.size ≠ 0 → d.base.toNat = field (descriptorBytes bytes q.val) 0 8 ∧
        d.cq.val = field (descriptorBytes bytes q.val) 10 1 ∧ d.weight = field (descriptorBytes bytes q.val) 11 1) := by
  unfold sqDescriptor SqDescriptorFits
  dsimp only
  split
  · next hsize => exact ⟨by simp [hsize], fun d hd => by cases hd; simp [SqDescriptor.unused, hsize]⟩
  · next hsize =>
    have hcond : (ringFits (field (descriptorBytes bytes q.val) 0 8) (field (descriptorBytes bytes q.val) 8 2) 32 = true ∧
        field (descriptorBytes bytes q.val) 10 1 ≤ 3 ∧
        cqSizeField bytes (field (descriptorBytes bytes q.val) 10 1) ≠ 0 ∧
        1 ≤ field (descriptorBytes bytes q.val) 11 1 ∧ field (descriptorBytes bytes q.val) 11 1 ≤ 8 ∧
        reservedZero (descriptorBytes bytes q.val) 12 4 = true) ↔ SqDescriptorFits bytes q := by
      rw [ringFits_iff, reservedZero_iff]
      simp [SqDescriptorFits, hsize, ZeroAt, cqSizeField, and_assoc]
    split
    · next hpass =>
      have hfits := hcond.mp hpass
      refine ⟨⟨fun _ => hfits, fun _ => rfl⟩, fun d hd => ?_⟩
      cases hd
      rcases hfits with h | ⟨-, -, -, hbase, -, hcq, -⟩
      · exact absurd h hsize
      · refine ⟨rfl, fun _ => ⟨Nat.mod_eq_of_lt hbase, Nat.mod_eq_of_lt (by omega), rfl⟩⟩
    · next hfail => exact ⟨⟨nofun, fun h => absurd (hcond.mpr h) hfail⟩, nofun⟩

/-- A CQ descriptor passes exactly if 08 R138 lets it pass, and is read field by field. -/
theorem cqDescriptor_fits (bytes : List Byte) (q : CqNo) :
    ((cqDescriptor bytes q).isSome = true ↔ CqDescriptorFits bytes q) ∧
    ∀ d, cqDescriptor bytes q = some d → d.size = field (descriptorBytes bytes (4 + q.val)) 8 2 ∧
      (d.size ≠ 0 → d.base.toNat = field (descriptorBytes bytes (4 + q.val)) 0 8 ∧
        d.level.code = field (descriptorBytes bytes (4 + q.val)) 10 1 ∧
        (d.notify = true ↔ field (descriptorBytes bytes (4 + q.val)) 11 1 = 1) ∧
        d.threshold = field (descriptorBytes bytes (4 + q.val)) 12 1 ∧
        d.delay = field (descriptorBytes bytes (4 + q.val)) 13 1) := by
  unfold cqDescriptor CqDescriptorFits
  dsimp only
  split
  · next hsize => exact ⟨by simp [hsize], fun d hd => by cases hd; simp [CqDescriptor.unused, hsize]⟩
  · next hsize =>
    split
    · next hlevel =>
      have hcode := (NotifyLevel.ofCode_isSome (field (descriptorBytes bytes (4 + q.val)) 10 1)).not
      rw [hlevel] at hcode
      simp only [Option.isSome_none, Bool.false_eq_true, not_false_iff, true_iff] at hcode
      refine ⟨⟨nofun, ?_⟩, nofun⟩
      rintro (h | ⟨-, -, -, -, -, hlow, hhigh, -⟩)
      · exact absurd h hsize
      · exact absurd ⟨hlow, hhigh⟩ hcode
    · next level hlevel =>
      have hcode := (NotifyLevel.ofCode_isSome (field (descriptorBytes bytes (4 + q.val)) 10 1)).mp (by rw [hlevel]; rfl)
      have hcond : (ringFits (field (descriptorBytes bytes (4 + q.val)) 0 8)
          (field (descriptorBytes bytes (4 + q.val)) 8 2) 16 = true ∧
          field (descriptorBytes bytes (4 + q.val)) 11 1 ≤ 1 ∧ 1 ≤ field (descriptorBytes bytes (4 + q.val)) 12 1 ∧
          field (descriptorBytes bytes (4 + q.val)) 12 1 ≤ 64 ∧
          reservedZero (descriptorBytes bytes (4 + q.val)) 14 2 = true) ↔ CqDescriptorFits bytes q := by
        rw [ringFits_iff, reservedZero_iff]
        simp [CqDescriptorFits, hsize, ZeroAt, hcode, and_assoc]
      split
      · next hpass =>
        have hfits := hcond.mp hpass
        refine ⟨⟨fun _ => hfits, fun _ => rfl⟩, fun d hd => ?_⟩
        cases hd
        rcases hfits with h | ⟨-, -, -, hbase, -⟩
        · exact absurd h hsize
        · exact ⟨rfl, fun _ => ⟨Nat.mod_eq_of_lt hbase, NotifyLevel.code_of_ofCode hlevel, by simp, rfl, rfl⟩⟩
      · next hfail => exact ⟨⟨nofun, fun h => absurd (hcond.mpr h) hfail⟩, nofun⟩

/-- The first ring number in order with a property. -/
theorem find?_ringNumbers (p : Fin 4 → Bool) :
    (∀ q, ringNumbers.find? p = some q ↔ p q = true ∧ ∀ r, r < q → p r = false) ∧
    (ringNumbers.find? p = none ↔ ∀ q, p q = false) := by
  refine ⟨fun q => ?_, ?_⟩
  · have all : ∀ (f : Fin 4 → Bool) (q : Fin 4),
        ringNumbers.find? f = some q ↔ f q = true ∧ ∀ r, r < q → f r = false := by decide
    exact all p q
  · simp [List.find?_eq_none, mem_ringNumbers]

theorem firstFailure_sq (bytes : List Byte) (q : SqNo) :
    firstFailure bytes = some (.sq q) ↔ ¬ SqDescriptorFits bytes q ∧ ∀ p : SqNo, p < q → SqDescriptorFits bytes p := by
  have hfind := (find?_ringNumbers fun q => (sqDescriptor bytes q).isNone).1 q
  simp only [← (sqDescriptor_fits bytes _).1, Bool.not_eq_true, Option.isSome_eq_false_iff]
  unfold firstFailure
  split
  · next p hp =>
    rw [hp] at hfind
    simp only [Option.some.injEq] at hfind
    simpa using hfind
  · next hp =>
    rw [hp] at hfind
    simp only [reduceCtorEq, false_iff, not_and] at hfind
    simpa using hfind

theorem firstFailure_cq (bytes : List Byte) (q : CqNo) :
    firstFailure bytes = some (.cq q) ↔ (∀ p, SqDescriptorFits bytes p) ∧ ¬ CqDescriptorFits bytes q ∧
      ∀ p : CqNo, p < q → CqDescriptorFits bytes p := by
  have hfind := (find?_ringNumbers fun q => (cqDescriptor bytes q).isNone).1 q
  have hnone := (find?_ringNumbers fun q => (sqDescriptor bytes q).isNone).2
  simp only [← (sqDescriptor_fits bytes _).1, ← (cqDescriptor_fits bytes _).1, Bool.not_eq_true,
    Option.isSome_eq_false_iff]
  unfold firstFailure
  split
  · next p hp =>
    rw [hp] at hnone
    simp only [reduceCtorEq, false_iff] at hnone
    have : ¬ ∀ p, (sqDescriptor bytes p).isSome = true := by simpa using hnone
    simp [this]
  · next hp =>
    have : ∀ p, (sqDescriptor bytes p).isSome = true := by simpa using hnone.mp hp
    simp [this, hfind]

theorem firstFailure_none (bytes : List Byte) :
    firstFailure bytes = none ↔ (∀ p, SqDescriptorFits bytes p) ∧ ∀ p, CqDescriptorFits bytes p := by
  have hcq := (find?_ringNumbers fun q => (cqDescriptor bytes q).isNone).2
  have hsq := (find?_ringNumbers fun q => (sqDescriptor bytes q).isNone).2
  simp only [← (sqDescriptor_fits bytes _).1, ← (cqDescriptor_fits bytes _).1]
  unfold firstFailure
  split
  · next p hp =>
    rw [hp] at hsq
    simp only [reduceCtorEq, false_iff] at hsq
    have : ¬ ∀ p, (sqDescriptor bytes p).isSome = true := by simpa using hsq
    simp [this]
  · next hp =>
    have : ∀ p, (sqDescriptor bytes p).isSome = true := by simpa using hsq.mp hp
    simp [this, hcq]

theorem firstFailure_ne_none (bytes : List Byte) : firstFailure bytes ≠ some .none := by
  unfold firstFailure
  split
  · simp
  · simp [Option.map_eq_some_iff]

/-- The block that the fields spell, as the descriptors are read. -/
theorem examine_of_no_failure {bytes : List Byte} (h : firstFailure bytes = none) :
    examine bytes =
      if ringNumbers.any fun q => ((sqDescriptor bytes q).getD .unused).size != 0 then
        .valid { sqs := Vector.ofFn fun q => (sqDescriptor bytes q).getD .unused,
                 cqs := Vector.ofFn fun q => (cqDescriptor bytes q).getD .unused }
      else .invalid .none := by
  unfold examine
  rw [h]
  simp

theorem examine_of_failure {bytes : List Byte} {source : FaultSource} (h : firstFailure bytes = some source) :
    examine bytes = .invalid source := by
  unfold examine
  rw [h]

theorem examine_invalid_iff {bytes : List Byte} {source : FaultSource} (hs : source ≠ .none) :
    examine bytes = .invalid source ↔ firstFailure bytes = some source := by
  cases hf : firstFailure bytes with
  | some x => rw [examine_of_failure hf]; simp
  | none =>
    rw [examine_of_no_failure hf]
    split
    · simp
    · simp [Ne.symm hs]

/-- The size of a descriptor that passes is its size field. -/
theorem sqDescriptor_size {bytes : List Byte} {q : SqNo} (h : SqDescriptorFits bytes q) :
    ((sqDescriptor bytes q).getD .unused).size = field (descriptorBytes bytes q.val) 8 2 := by
  obtain ⟨hsome, hfields⟩ := sqDescriptor_fits bytes q
  obtain ⟨d, hd⟩ := Option.isSome_iff_exists.mp (hsome.mpr h)
  rw [hd]
  exact (hfields d hd).1

/-- Settles O26: by the first descriptor that fails, if one does. -/
theorem blockExamination : Obligations.BlockExamination := by
  intro bytes sqSizeOf cqSizeOf
  have used (h : firstFailure bytes = none) :
      (ringNumbers.any fun q => ((sqDescriptor bytes q).getD .unused).size != 0) = true ↔ ∃ q, sqSizeOf q ≠ 0 := by
    obtain ⟨hsq, -⟩ := (firstFailure_none bytes).mp h
    simp [mem_ringNumbers, sqDescriptor_size (hsq _), sqSizeOf]
  refine ⟨fun q => (examine_invalid_iff (by simp)).trans (firstFailure_sq bytes q),
    fun q => (examine_invalid_iff (by simp)).trans (firstFailure_cq bytes q), ?_, fun b hb => ?_⟩
  · cases hf : firstFailure bytes with
    | some x =>
      have hne : x ≠ .none := fun hx => firstFailure_ne_none bytes (hx ▸ hf)
      have hnot := (firstFailure_none bytes).not.mp (by simp [hf])
      rw [examine_of_failure hf]
      simp only [Examination.invalid.injEq, hne, false_iff]
      rintro ⟨hsq, hcq, -⟩
      exact hnot ⟨hsq, hcq⟩
    | none =>
      obtain ⟨hsq, hcq⟩ := (firstFailure_none bytes).mp hf
      have hused := used hf
      rw [examine_of_no_failure hf]
      split
      · next hany =>
        obtain ⟨q, hq⟩ := hused.mp hany
        simp only [reduceCtorEq, false_iff]
        rintro ⟨-, -, hzero⟩
        exact hq (hzero q)
      · next hany =>
        simp only [true_iff]
        refine ⟨hsq, hcq, fun q => ?_⟩
        by_contra hq
        exact hany (hused.mpr ⟨q, hq⟩)
  · cases hf : firstFailure bytes with
    | some x => rw [examine_of_failure hf] at hb; cases hb
    | none =>
      obtain ⟨hsq, hcq⟩ := (firstFailure_none bytes).mp hf
      have hused := used hf
      rw [examine_of_no_failure hf] at hb
      split at hb
      · next hany =>
        cases hb
        refine ⟨hsq, hcq, hused.mp hany, fun q => ?_, fun q => ?_⟩
        · obtain ⟨hsome, hfields⟩ := sqDescriptor_fits bytes q
          obtain ⟨d, hd⟩ := Option.isSome_iff_exists.mp (hsome.mpr (hsq q))
          obtain ⟨hsize, hrest⟩ := hfields d hd
          simp only [Fin.getElem_fin, Vector.getElem_ofFn, Fin.eta, hd, Option.getD_some]
          exact ⟨hsize, fun hq => hrest (hsize ▸ hq)⟩
        · obtain ⟨hsome, hfields⟩ := cqDescriptor_fits bytes q
          obtain ⟨d, hd⟩ := Option.isSome_iff_exists.mp (hsome.mpr (hcq q))
          obtain ⟨hsize, hrest⟩ := hfields d hd
          simp only [Fin.getElem_fin, Vector.getElem_ofFn, Fin.eta, hd, Option.getD_some]
          exact ⟨hsize, fun hq => hrest (hsize ▸ hq)⟩
      · cases hb

/-! ### Validation of records (01 Table 1.5) -/

theorem field_eq_zero_iff (r : List Byte) (offset size : Nat) : field r offset size = 0 ↔ ZeroAt r offset size := by
  unfold field ZeroAt
  induction (r.drop offset).take size with
  | nil => simp [leNat]
  | cons b bs ih =>
    have hcons : leNat (b :: bs) = b.toNat + 256 * leNat bs := rfl
    have hb : b.toNat = 0 ↔ b = 0#8 := ⟨fun h => BitVec.eq_of_toNat_eq (by simpa using h), fun h => by simp [h]⟩
    simp only [hcons, List.forall_mem_cons, ← ih, ← hb]
    omega

theorem headerFits_iff (r : List Byte) :
    headerFits r = true ↔ field r 1 1 ≤ 1 ∧ field r 3 1 = 0 ∧ field r 6 2 = 0 := by
  simp only [headerFits, Bool.and_eq_true, decide_eq_true_eq, reservedZero_iff, field_eq_zero_iff, and_assoc]

theorem recordAdmits_iff (l : LineRecord) (b : Body) :
    recordAdmits l b = true ↔ (l.configured = true →
      (∀ c, b = .command (.abort c) → l.mode = .poll → c = .all) ∧
      ∀ x, b = .send x → (x.markFirst = true → l.dataBits = .nine) ∧ (x.ctsLimit ≠ 0 → l.flow = .hardware)) := by
  have hmode : l.mode = .stream ↔ l.mode ≠ .poll := by cases l.mode <;> simp
  have himp (p : Prop) : (l.configured = true → p) ↔ (l.configured = false ∨ p) := by
    cases l.configured <;> simp
  unfold recordAdmits
  split
  · simp [himp, hmode, Decidable.imp_iff_not_or (a := l.mode = .poll)]
  · next x =>
    have hmark : (x.markFirst = true → l.dataBits = .nine) ↔ (x.markFirst = false ∨ l.dataBits = .nine) := by
      cases x.markFirst <;> simp
    have hlimit : (x.ctsLimit ≠ 0 → l.flow = .hardware) ↔ (x.ctsLimit = 0 ∨ l.flow = .hardware) := by
      rw [Decidable.imp_iff_not_or, not_not]
    simp [himp, hmark, hlimit]
  · next habort hsend =>
    simp only [Bool.or_true, true_iff]
    exact fun _ => ⟨fun c hc => absurd hc (habort c), fun x hx => absurd hx (hsend x)⟩

theorem modeAdmits_eq_false_iff (l : LineRecord) (k : Kind) :
    modeAdmits l k = false ↔ l.configured = true ∧
      ((k = .poll ∧ l.mode = .stream) ∨ ((k = .postBuffer ∨ k = .flushRx) ∧ l.mode = .poll)) := by
  unfold modeAdmits
  cases l.configured <;> cases k <;> cases l.mode <;> simp

/-- Step 3 of Table 1.5 passes. -/
def LineFits (block : Option Block) (l : Line) (k : Kind) (r : List Byte) : Prop :=
  ∃ b, parseBody block k r = some b ∧ headerFits r = true ∧ recordAdmits l.record b = true

/-- Steps 3, 4a and 4b: which of them fails first, if one does. -/
theorem lineVerdict_cases (block : Option Block) (l : Line) (n : LineNo) (k : Kind) (r : List Byte) :
    (¬ LineFits block l k r ∧ lineVerdict block l n k r = .refused .badField (some n)) ∨
    (LineFits block l k r ∧ (k.isData = true ∧ l.state ≠ .enabled) ∧
      lineVerdict block l n k r = .refused .lineDisabled (some n)) ∨
    (LineFits block l k r ∧ (k.isData = true → l.state = .enabled) ∧ modeAdmits l.record k = false ∧
      lineVerdict block l n k r = .refused .wrongMode (some n)) ∨
    (LineFits block l k r ∧ (k.isData = true → l.state = .enabled) ∧ modeAdmits l.record k = true ∧
      ∃ b, lineVerdict block l n k r = .accepted (some n) b) := by
  unfold lineVerdict LineFits
  cases parseBody block k r with
  | none => simp
  | some b =>
    by_cases hfits : headerFits r = true ∧ recordAdmits l.record b = true
    · by_cases hdata : k.isData = true ∧ l.state ≠ .enabled
      · simp [hfits, hdata]
      · have hdata' : k.isData = true → l.state = .enabled := fun hk => by simpa [hk] using hdata
        have hpass : (k.isData && l.state != .enabled) = false := by simpa using hdata'
        cases hmode : modeAdmits l.record k <;> simp [hfits, hpass] <;> exact hdata'
    · have hpass : (!headerFits r || !recordAdmits l.record b) = true := by
        simpa [Decidable.imp_iff_not_or] using hfits
      simp [hpass, hfits]

theorem verdict_of_noKind {r : List Byte} (block : Option Block) (lines : Vector Line 16)
    (hk : Kind.ofCode (field r 0 1) = none) : verdict block lines r = .refused .badKind none := by
  simp [verdict, hk]

theorem verdict_of_fence {r : List Byte} (block : Option Block) (lines : Vector Line 16)
    (hk : Kind.ofCode (field r 0 1) = some .fence) :
    ((headerFits r = true ∧ field r 2 1 = 0 ∧ ZeroAt r 8 24) ∧ verdict block lines r = .accepted none .fence) ∨
    (¬ (headerFits r = true ∧ field r 2 1 = 0 ∧ ZeroAt r 8 24) ∧ verdict block lines r = .refused .badField none) := by
  have hfits : (headerFits r && reservedZero r 2 1 && reservedZero r 8 24) = true ↔
      headerFits r = true ∧ field r 2 1 = 0 ∧ ZeroAt r 8 24 := by
    simp only [Bool.and_eq_true, reservedZero_iff, field_eq_zero_iff, and_assoc]
  rw [← hfits]
  simp only [verdict, hk]
  split
  · next h => exact .inl ⟨h, rfl⟩
  · next h => exact .inr ⟨h, rfl⟩

theorem verdict_of_line {r : List Byte} {k : Kind} (block : Option Block) (lines : Vector Line 16)
    (hk : Kind.ofCode (field r 0 1) = some k) (hne : k ≠ .fence) (h : field r 2 1 < 16) :
    verdict block lines r = lineVerdict block lines[field r 2 1] ⟨field r 2 1, h⟩ k r := by
  unfold verdict
  rw [hk]
  split
  · next hnone => cases hnone
  · next hfence => exact absurd (Option.some.inj hfence) hne
  · next k' _ hk' =>
    cases hk'
    exact dif_pos h

theorem verdict_of_noLine {r : List Byte} {k : Kind} (block : Option Block) (lines : Vector Line 16)
    (hk : Kind.ofCode (field r 0 1) = some k) (hne : k ≠ .fence) (h : ¬ field r 2 1 < 16) :
    verdict block lines r = .refused .badLine none := by
  unfold verdict
  rw [hk]
  split
  · next hnone => cases hnone
  · next hfence => exact absurd (Option.some.inj hfence) hne
  · next k' _ hk' =>
    cases hk'
    exact dif_neg h

/-- What a record passes on the way to a verdict: its kind, the fence's own checks, its line byte, the checks of its line. -/
theorem record_cases (r : List Byte) :
    Kind.ofCode (field r 0 1) = none ∨ Kind.ofCode (field r 0 1) = some .fence ∨
    ∃ k, Kind.ofCode (field r 0 1) = some k ∧ k ≠ .fence ∧ (field r 2 1 < 16 ∨ ¬ field r 2 1 < 16) := by
  cases Kind.ofCode (field r 0 1) with
  | none => exact .inl rfl
  | some k =>
    by_cases hk : k = .fence
    · exact .inr (.inl (congrArg some hk))
    · exact .inr (.inr ⟨k, rfl, hk, Decidable.em _⟩)

/-- Settles O28: by the record's kind and its line byte, each verdict being the one of the check that fails first. -/
theorem validationOrder : Obligations.ValidationOrder := by
  intro block lines r code decided
  refine ⟨?_, ?_, ?_, ?_, ?_, ?_, (parseBody_iff block · r), headerFits_iff r, recordAdmits_iff⟩
  · rcases record_cases r with hk | hk | ⟨k, hk, hne, h | h⟩
    · simp [code, decided, hk, verdict_of_noKind block lines hk]
    · rcases verdict_of_fence block lines hk with ⟨-, hv⟩ | ⟨-, hv⟩ <;> simp [code, decided, hk, hv]
    · rcases lineVerdict_cases block lines[field r 2 1] ⟨field r 2 1, h⟩ k r with
        ⟨-, hv⟩ | ⟨-, -, hv⟩ | ⟨-, -, -, hv⟩ | ⟨-, -, -, b, hv⟩ <;>
        simp [code, decided, hk, verdict_of_line block lines hk hne h, hv]
    · simp [code, decided, hk, verdict_of_noLine block lines hk hne h]
  · rcases record_cases r with hk | hk | ⟨k, hk, hne, h | h⟩
    · simp [code, decided, hk, verdict_of_noKind block lines hk]
    · rcases verdict_of_fence block lines hk with ⟨-, hv⟩ | ⟨-, hv⟩ <;> simp [code, decided, hk, hv]
    · rcases lineVerdict_cases block lines[field r 2 1] ⟨field r 2 1, h⟩ k r with
        ⟨-, hv⟩ | ⟨-, -, hv⟩ | ⟨-, -, -, hv⟩ | ⟨-, -, -, b, hv⟩ <;>
        simp [code, decided, hk, verdict_of_line block lines hk hne h, hv, Nat.not_le.mpr h]
    · simp [code, decided, hk, verdict_of_noLine block lines hk hne h, hne, Nat.not_lt.mp h]
  · intro st line hv'
    rcases record_cases r with hk | hk | ⟨k, hk, hne, h | h⟩
    · simp_all [verdict_of_noKind block lines hk]
    · rcases verdict_of_fence block lines hk with ⟨-, hv⟩ | ⟨-, hv⟩ <;> simp_all
    · rw [verdict_of_line block lines hk hne h] at hv'
      rcases lineVerdict_cases block lines[field r 2 1] ⟨field r 2 1, h⟩ k r with
        ⟨-, hv⟩ | ⟨-, -, hv⟩ | ⟨-, -, -, hv⟩ | ⟨-, -, -, b, hv⟩ <;> simp_all
    · simp_all [verdict_of_noLine block lines hk hne h]
  · intro k h hk hne l body fits
    have hfits : fits ↔ LineFits block l k r := Iff.rfl
    rw [hfits, ← modeAdmits_eq_false_iff]
    simp only [decided, verdict_of_line block lines hk hne h]
    rcases lineVerdict_cases block l ⟨field r 2 1, h⟩ k r with
      ⟨hf, hv⟩ | ⟨hf, hs, hv⟩ | ⟨hf, hs, hm, hv⟩ | ⟨hf, hs, hm, b, hv⟩
    · simp [l, hf, hv]
    · simp [l, hf, hv, hs]
    · simp [l, hf, hv, hm]
      exact hs
    · simp [l, hf, hv, hm]
      exact hs
  · intro hk fits
    have hfits : fits ↔ headerFits r = true ∧ field r 2 1 = 0 ∧ ZeroAt r 8 24 := Iff.rfl
    rw [hfits]
    rcases verdict_of_fence block lines hk with ⟨h, hv⟩ | ⟨h, hv⟩ <;> simp [decided, hv, h]
  · intro line hline n
    rcases record_cases r with hk | hk | ⟨k, hk, hne, h | h⟩
    · have : line = none := by simpa [verdict_of_noKind block lines hk, eq_comm] using hline
      simp [this, code, hk]
    · have : line = none := by
        rcases verdict_of_fence block lines hk with ⟨-, hv⟩ | ⟨-, hv⟩ <;> simpa [hv, eq_comm] using hline
      simp [this, code, hk]
    · have : line = some ⟨field r 2 1, h⟩ := by
        rw [verdict_of_line block lines hk hne h] at hline
        rcases lineVerdict_cases block lines[field r 2 1] ⟨field r 2 1, h⟩ k r with
          ⟨-, hv⟩ | ⟨-, -, hv⟩ | ⟨-, -, -, hv⟩ | ⟨-, -, -, b, hv⟩ <;> simpa [hv, eq_comm] using hline
      simp [this, code, hk, hne, Fin.ext_iff]
    · have : line = none := by simpa [verdict_of_noLine block lines hk hne h, eq_comm] using hline
      have hn := n.isLt
      simp only [this, reduceCtorEq, false_iff]
      rintro ⟨-, -, hbyte⟩
      omega

/-- The line and the kind's body that an accepted record has, and what Table 1.5 has checked of them. -/
theorem verdict_accepted_body {block : Option Block} {lines : Vector Line 16} {r : List Byte} {line : Option LineNo}
    {b : Body} (h : verdict block lines r = .accepted line b) :
    (Kind.ofCode (field r 0 1) = some .fence ∧ BodyFits block r .fence b ∧ line = none) ∨
    ∃ (k : Kind) (n : LineNo), Kind.ofCode (field r 0 1) = some k ∧ k ≠ .fence ∧ BodyFits block r k b ∧ line = some n ∧
      n.val = field r 2 1 ∧ recordAdmits lines[n].record b = true ∧ (k.isData = true → lines[n].state = .enabled) ∧
      modeAdmits lines[n].record k = true := by
  rcases verdict_accepted h with ⟨hline, hb, hk, -, -, hzero⟩ | ⟨k, n, hk, hne, hline, hn, hv⟩
  · exact .inl ⟨hk, ⟨(reservedZero_iff ..).mp hzero, hb⟩, hline⟩
  · obtain ⟨-, hbody, -, hadmits, henabled, hmode⟩ := lineVerdict_accepted hv
    exact .inr ⟨k, n, hk, hne, (parseBody_iff ..).mp hbody, hline, hn, hadmits, henabled, hmode⟩

/-- A body other than a FENCE or a line command is of the one data kind that has such bodies. -/
theorem bodyFits_send {block : Option Block} {r : List Byte} {k : Kind} {x : SendBody} (h : BodyFits block r k (.send x)) :
    k = .send ∧ SendFits r x := by
  cases k <;> simp_all [BodyFits]

theorem bodyFits_buffer {block : Option Block} {r : List Byte} {k : Kind} {x : BufferBody}
    (h : BodyFits block r k (.buffer x)) : k = .postBuffer ∧ BufferFits r x := by
  cases k <;> simp_all [BodyFits]

theorem bodyFits_poll {block : Option Block} {r : List Byte} {k : Kind} {x : PollBody} (h : BodyFits block r k (.poll x)) :
    k = .poll ∧ PollFits r x := by
  cases k <;> simp_all [BodyFits]

/-- Settles O29: what the checks of Table 1.5 have established of an accepted record. -/
theorem acceptedDataRecordsFit : Obligations.AcceptedDataRecordsFit := by
  intro block lines r line body h enabledIn
  have hbody := verdict_accepted_body h
  refine ⟨?_, ?_, ?_, ?_⟩
  · rcases hbody with ⟨hk, hfits, hline⟩ | ⟨k, n, hk, hne, hfits, hline, hn, -⟩
    · exact ⟨.fence, hk, hfits, fun _ => hline, fun hne => absurd rfl hne⟩
    · exact ⟨k, hk, hfits, fun he => absurd he hne, fun _ => ⟨n, hline, hn⟩⟩
  · rintro x rfl
    rcases hbody with ⟨-, hfits, -⟩ | ⟨k, n, -, -, hfits, hline, -, hadmits, henabled, -⟩
    · exact absurd (bodyFits_send hfits).1 (by simp)
    · obtain ⟨rfl, -, ⟨hlength, hle, hge⟩, harea, ⟨hbreak, hbreak'⟩, hgap, -, hcts, -⟩ := bodyFits_send hfits
      have hgap' := field_lt r 19 1
      have hcts' := field_lt r 21 1
      refine ⟨by omega, by omega, by omega, by omega, by omega, by omega, n, hline, henabled rfl, fun hconf => ?_⟩
      exact ((recordAdmits_iff ..).mp hadmits hconf).2 x rfl
  · rintro x rfl
    rcases hbody with ⟨-, hfits, -⟩ | ⟨k, n, -, -, hfits, hline, -, -, henabled, hmode⟩
    · exact absurd (bodyFits_buffer hfits).1 (by simp)
    · obtain ⟨rfl, -, ⟨-, hge, hle⟩, harea, -⟩ := bodyFits_buffer hfits
      refine ⟨hge, hle, harea, n, hline, henabled rfl, fun hconf => ?_⟩
      simpa only [modeAdmits, hconf, Bool.not_true, Bool.false_or, beq_iff_eq] using hmode
  · rintro x rfl
    rcases hbody with ⟨-, hfits, -⟩ | ⟨k, n, -, -, hfits, hline, -, -, henabled, hmode⟩
    · exact absurd (bodyFits_poll hfits).1 (by simp)
    · obtain ⟨rfl, hfit⟩ := bodyFits_poll hfits
      have hmode' : lines[n].record.configured = true → lines[n].record.mode = .poll := fun hconf => by
        simpa only [modeAdmits, hconf, Bool.not_true, Bool.false_or, beq_iff_eq] using hmode
      obtain ⟨hgap, hgap'⟩ := hfit.replyGap
      obtain ⟨htimeout, htimeout'⟩ := hfit.timeout
      have hgap'' := field_lt r 10 1
      have htimeout'' := field_lt r 11 1
      exact ⟨hfit.payloadLength.2, hfit.replyCapacity.2, hfit.payloadAddress.2, hfit.replyAddress.2, hgap', by omega,
        htimeout', by omega, hfit.control.2, n, hline, henabled rfl, hmode'⟩

end Sys2Proof.Machine

/-! PROOFS of O25 (descriptor reads), O27 (the fetcher), O32 (FENCEs) and O33 (faults of transfers), with what a round-robin
search finds. -/

namespace Sys2Proof.Machine

/-! ### Round-robin searches -/

/-- How far after position `last` of `count` positions in a circle position `pos` stands: 0 right after it, the last of
all at it. -/
def turnsAfter (count last pos : Nat) : Nat := (pos + (count - 1) - last) % count

theorem searchAfter_split {α : Type} [DecidableEq α] {all : List α} {last : α} (hlast : last ∈ all) :
    ∃ before after, all = before ++ last :: after ∧ searchAfter all last = after ++ before ++ [last] := by
  obtain ⟨before, after, rfl, hnot⟩ := List.eq_append_cons_of_mem hlast
  have hne : ∀ x ∈ before, (decide (x ≠ last)) = true := fun x hx => by
    simpa using fun h : x = last => hnot (h ▸ hx)
  have hdrop : (before ++ last :: after).dropWhile (fun x => x ≠ last) = last :: after := by
    rw [List.dropWhile_append_of_pos hne, List.dropWhile_cons_of_neg (by simp)]
  have htake : (before ++ last :: after).takeWhile (fun x => x ≠ last) = before := by
    rw [List.takeWhile_append_of_pos hne, List.takeWhile_cons_of_neg (by simp), List.append_nil]
  exact ⟨before, after, rfl, by rw [searchAfter, hdrop, htake, List.tail_cons]⟩

theorem mem_searchAfter {α : Type} [DecidableEq α] {all : List α} {last : α} (hlast : last ∈ all) (x : α) :
    x ∈ searchAfter all last ↔ x ∈ all := by
  obtain ⟨before, after, rfl, h⟩ := searchAfter_split hlast
  rw [h]
  simp only [List.mem_append, List.mem_cons, List.not_mem_nil, or_false]
  tauto

/-- A round-robin search passes its positions in the order of the circle, from the one after the last granted. -/
theorem searchAfter_turns {α : Type} [DecidableEq α] {all : List α} {pos : α → Nat} {b : Nat}
    (hpos : all.map pos = List.range' b all.length) {last : α} (hlast : last ∈ all) :
    (searchAfter all last).map (fun x => turnsAfter all.length (pos last) (pos x)) = List.range all.length := by
  obtain ⟨before, after, rfl, h⟩ := searchAfter_split hlast
  set N := (before ++ last :: after).length with hN
  have hlen : N = before.length + (1 + after.length) := by simp [hN, Nat.add_comm]
  rw [hlen, ← List.range'_append, Nat.add_comm 1, List.range'_succ, List.map_append, List.map_cons] at hpos
  obtain ⟨hbefore, hcons⟩ := List.append_inj hpos (by simp)
  obtain ⟨hl, hafter⟩ := List.cons.inj hcons
  have key : (fun x => turnsAfter N (pos last) (pos x)) = turnsAfter N (pos last) ∘ pos := rfl
  have turns_before : before.map (turnsAfter N (pos last) ∘ pos) = List.range' after.length before.length := by
    rw [← List.map_map, hbefore]
    apply List.ext_getElem
    · simp
    · intro k h1 _
      simp only [List.length_map, List.length_range'] at h1
      simp only [List.getElem_map, List.getElem_range', turnsAfter, hl]
      rw [show b + 1 * k + (N - 1) - (b + 1 * before.length) = after.length + k by omega, Nat.mod_eq_of_lt (by omega), one_mul]
  have turns_after : after.map (turnsAfter N (pos last) ∘ pos) = List.range' 0 after.length := by
    rw [← List.map_map, hafter]
    apply List.ext_getElem
    · simp
    · intro k h1 _
      simp only [List.length_map, List.length_range'] at h1
      simp only [List.getElem_map, List.getElem_range', turnsAfter, hl]
      rw [show b + 1 * before.length + 1 + 1 * k + (N - 1) - (b + 1 * before.length) = k + N by omega, Nat.add_mod_right,
        Nat.mod_eq_of_lt (by omega), one_mul, Nat.zero_add]
  have turns_last : turnsAfter N (pos last) (pos last) = N - 1 := by
    rw [turnsAfter, Nat.add_sub_cancel_left, Nat.mod_eq_of_lt (by omega)]
  rw [h, key, List.map_append, List.map_append, turns_before, turns_after, List.map_singleton, Function.comp_apply, turns_last,
    List.range_eq_range', hlen, Nat.add_comm 1, ← Nat.add_assoc, Nat.add_comm before.length, List.range'_concat,
    ← List.range'_append]
  simp

theorem find?_first {α : Type} {xs : List α} {key : α → Nat} (sorted : xs.Pairwise fun x y => key x < key y)
    {p : α → Bool} {x : α} (hx : x ∈ xs) (hp : p x = true) (first : ∀ y, p y = true → key x ≤ key y) :
    xs.find? p = some x := by
  induction xs with
  | nil => exact absurd hx List.not_mem_nil
  | cons y ys ih =>
    rw [List.pairwise_cons] at sorted
    cases hy : p y with
    | true =>
      rw [List.find?_cons_of_pos hy]
      rcases List.mem_cons.mp hx with rfl | hmem
      · rfl
      · exact absurd (first y hy) (Nat.not_le.mpr (sorted.1 x hmem))
    | false =>
      rw [List.find?_cons_of_neg (by simp [hy])]
      rcases List.mem_cons.mp hx with rfl | hmem
      · rw [hp] at hy; cases hy
      · exact ih sorted.2 hmem

/-- The search finds the position that comes first in the circle. -/
theorem searchAfter_find? {α : Type} [DecidableEq α] {all : List α} {pos : α → Nat} {b : Nat}
    (hpos : all.map pos = List.range' b all.length) {last x : α} (hlast : last ∈ all) {p : α → Bool} (hx : x ∈ all)
    (hp : p x = true)
    (first : ∀ y, p y = true → turnsAfter all.length (pos last) (pos x) ≤ turnsAfter all.length (pos last) (pos y)) :
    (searchAfter all last).find? p = some x := by
  have sorted : (searchAfter all last).Pairwise fun x y =>
      turnsAfter all.length (pos last) (pos x) < turnsAfter all.length (pos last) (pos y) := by
    rw [← List.pairwise_map (f := fun x => turnsAfter all.length (pos last) (pos x)), searchAfter_turns hpos hlast]
    exact List.pairwise_lt_range
  exact find?_first sorted ((mem_searchAfter hlast x).mpr hx) hp first

/-- The search among the four rings. -/
theorem searchAfter_ringNumbers {last q : Fin 4} {p : Fin 4 → Bool} (hp : p q = true)
    (first : ∀ y : Fin 4, p y = true → (q.val + 3 - last.val) % 4 ≤ (y.val + 3 - last.val) % 4) :
    (searchAfter ringNumbers last).find? p = some q :=
  searchAfter_find? (pos := Fin.val) (b := 0) (by decide) (mem_ringNumbers last) (mem_ringNumbers q) hp first

/-! ### Entry to FAULTED (11 R182) -/

/-- Entry to FAULTED from a state that differs from `s` in the transfers under way alone. -/
theorem State.enterFaulted_faultedFrom {s t : State} (code : FaultCode) (source : FaultSource) (ctl : t.ctl = s.ctl)
    (block : t.block = s.block)
    (fetcher : { t.fetcher with outstanding := none, kept := [] } = { s.fetcher with outstanding := none, kept := [] })
    (writer : { t.writer with outstanding := none } = { s.writer with outstanding := none })
    (port : t.port = { s.port with inFlight := none }) (lines : t.lines = s.lines) (notice : t.notice = s.notice)
    (pending : t.pending = s.pending) : s.FaultedFrom (t.enterFaulted code source) code source where
  ctl := by simp [State.enterFaulted, State.updateNotify, ctl]
  block := block
  table i := by simp [State.enterFaulted, State.updateNotify, State.entry]
  unlisted := by simp [State.enterFaulted, State.updateNotify]
  backlog := ⟨rfl, rfl⟩
  fetcher := fetcher
  writer := writer
  reports := rfl
  port := port
  lines n := by simp [State.enterFaulted, State.updateNotify, State.line, Line.FaultedFrom, Line.shutDown, lines]
  timers q := by simp [State.enterFaulted, State.updateNotify, notice]
  inService := by simp [State.enterFaulted, State.updateNotify, notice]
  request := rfl
  notify := State.updateNotify_follows _
  queue := pending

/-- Settles O33: both ends enter FAULTED with the transfer's request withdrawn. -/
theorem transferFaults : Obligations.TransferFaults := by
  rintro s t ⟨hport, hreset⟩
  refine ⟨fun q i ht => ?_, fun q ht => ?_⟩
  · refine ⟨_, ?_, State.enterFaulted_faultedFrom (t := { s.transferOver with
      fetcher := { s.fetcher with outstanding := none } }) .sqFetch (.sq q) rfl rfl rfl rfl rfl rfl rfl rfl⟩
    dsimp only [exec, execRecordFetchEnd]
    rw [State.endTransfer_acts s _ _ t hport (by simp [ht, TransferKind.fetchOf]) hreset]
    simp [ht, TransferKind.fetchOf, State.transferOver]
  · refine ⟨_, ?_, State.enterFaulted_faultedFrom (t := s.transferOver) .cqWrite (.cq q) rfl rfl rfl rfl rfl rfl rfl rfl⟩
    dsimp only [exec, execCompletionWriteEnd]
    rw [State.endTransfer_acts s _ _ t hport (by simp [ht, TransferKind.completionOf]) hreset]
    simp [ht, TransferKind.completionOf]

/-! ### Descriptor reads (08 R137) -/

theorem exec_descriptorReadEnd {s : State} {t : Transfer} {k : Fin 4} (h : s.inTransfer t) (ht : t.kind = .descriptorRead k)
    (e : ReadEnd Record) : exec (.descriptorReadEnd e) s = .next (s.transferOver.descriptorReadOver k e) := by
  dsimp only [exec, execDescriptorReadEnd]
  rw [State.endTransfer_acts s _ _ t h.1 (by simp [ht, TransferKind.descriptorIndex]) h.2]
  simp [ht, TransferKind.descriptorIndex]

/-- The fourth read has brought the whole block, which is examined (08 R138, 11 R178). -/
theorem State.descriptorReadOver_valid {s : State} {k : Fin 4} {bytes : Record} {b : Block} (hend : s.ctl.loadEnding = false)
    (hk : k.val = 3) (hb : examine (s.fetcher.kept ++ bytes.toList) = .valid b) :
    s.descriptorReadOver k (.ok bytes) =
      State.loadBlock { s with fetcher := { s.fetcher with outstanding := none } } b := by
  simp [State.descriptorReadOver, hend, hk, hb]

theorem State.descriptorReadOver_invalid {s : State} {k : Fin 4} {bytes : Record} {source : FaultSource}
    (hend : s.ctl.loadEnding = false) (hk : k.val = 3)
    (hx : examine (s.fetcher.kept ++ bytes.toList) = .invalid source) :
    s.descriptorReadOver k (.ok bytes) =
      State.refuseBlock { s with fetcher := { s.fetcher with outstanding := none } } source := by
  simp [State.descriptorReadOver, hend, hk, hx]

/-- Settles O25: by the cases of the end of a descriptor read. -/
theorem descriptorReadEnds : Obligations.DescriptorReadEnds := by
  intro s t k bytes h ht kept
  simp only [exec_descriptorReadEnd h ht]
  refine ⟨fun hend e => ?_, fun hend => ⟨⟨_, rfl, ?_⟩, fun hk => ?_, fun hk b hb => ⟨_, rfl, ?_, ?_⟩,
    fun hk source hx => ⟨_, rfl, ?_⟩⟩⟩
  · simp [State.descriptorReadOver, State.transferOver, hend]
  · have hover : s.transferOver.descriptorReadOver k .busError =
        State.enterFaulted { s.transferOver with fetcher := { s.fetcher with outstanding := none } } .descriptorRead .none := by
      simp [State.descriptorReadOver, State.transferOver, hend]
    rw [hover]
    exact State.enterFaulted_faultedFrom _ _ rfl rfl rfl rfl rfl rfl rfl rfl
  · have hsucc : (⟨k.val + 1, by omega⟩ : Fin 4) = k + 1 := by
      apply Fin.ext
      simp only [Fin.val_add, Fin.val_one]
      omega
    simp [State.descriptorReadOver, State.transferOver, hend, hk, descriptorRead, hsucc, kept]
  · rw [State.descriptorReadOver_valid (s := s.transferOver) hend hk hb]
    exact State.updateNotify_follows _
  · rw [State.descriptorReadOver_valid (s := s.transferOver) hend hk hb]
    rfl
  · rw [State.descriptorReadOver_invalid (s := s.transferOver) hend hk hx]
    exact State.enterFaulted_faultedFrom _ _ rfl rfl rfl rfl rfl rfl rfl rfl

/-! ### The offers of a single producer (01 R17, R20) -/

theorem State.newOffers_single {s : State} {p : Producer} {i : Slot} {r : Result} (hoff : s.onOffer p = some (i, r))
    (hnot : p ∉ s.backlog.waiting) : s.newOffers [p] = [p] := by
  simp [State.newOffers, hoff, hnot]

/-- It has one completion composed, and a slot is free: that one enters. -/
theorem State.settle_single_enters {s : State} {p : Producer} {i : Slot} {r : Result} (hoff : s.onOffer p = some (i, r))
    (hroom : s.hasRoom) (last : ((s.enterRecord i r).producerMovesOn i r p).onOffer p = none) :
    State.settle [p] settleBound s = (s.enterRecord i r).producerMovesOn i r p := by
  have hnot : p ∉ s.backlog.waiting := by simp [hroom.2]
  have henters := State.settle_one_enters [p] 191 s p i r (State.newOffers_single hoff hnot) hoff hroom
  exact henters.trans (State.settle_of_no_offers _ _ _ (by simp [State.newOffers, last]))

/-- It waits already. -/
theorem State.settle_single_kept {s : State} {p : Producer} (hwait : p ∈ s.backlog.waiting) :
    State.settle [p] settleBound s = s :=
  State.settle_of_no_offers _ _ _ (by simp [State.newOffers, hwait])

/-! ### Fences (01 R15) -/

/-- Settles O32: with no member left the completion is the one offer of the moment. -/
theorem fenceFinishes : Obligations.FenceFinishes := by
  intro s q f hf released r kept
  refine ⟨fun hset => ?_, fun e hset he hwait => ⟨fun hroom => ?_, fun hroom hdone => ?_, fun hroom hdone => ?_⟩⟩
  · simp [exec, execFenceWaitSetEmpty, hf, hset]
  all_goals
    have hexec : exec (.fenceWaitSetEmpty q) s = .next (State.settle [.fence] settleBound kept) := by
      simp [exec, execFenceWaitSetEmpty, hf, hset, kept, released, r]
    rw [hexec]
  · have hdone : s.fencesDone = [] := by
      by_contra hne
      simpa [hroom.2] using hwait.mp hne
    have henter := State.enterRecord_of_entry kept f.slot r e he
    rw [State.settle_single_enters (s := kept) (p := .fence) (i := f.slot) (r := r) (by simp [State.onOffer, kept, hdone]) hroom]
    · rw [henter]
      simp [State.producerMovesOn, State.leaveWaitSets, State.withAdmitted, kept, released, hdone]
    · rw [henter]
      simp [State.producerMovesOn, State.leaveWaitSets, State.onOffer, kept, hdone]
  · have hnot : .fence ∉ kept.backlog.waiting := fun hw => absurd hdone (hwait.mpr hw)
    have hoff : kept.onOffer .fence = some (f.slot, r) := by simp [State.onOffer, kept, hdone]
    exact congrArg _ (State.settle_one_waits _ 191 _ _ (State.newOffers_single hoff hnot) hroom)
  · exact congrArg _ (State.settle_single_kept (hwait.mp hdone))

/-! ### The fetcher (08 R142, R143) -/

theorem State.eligible_iff (s : State) (q : SqNo) : s.eligible q = true ↔ s.maySupply q := by
  rw [State.eligible, Bool.and_eq_true, Bool.and_eq_true, bne_iff_ne, decide_eq_true_iff, Option.isNone_iff_eq_none, and_assoc]
  rfl

/-- The lowest free entry is the first of the free ones. -/
theorem State.freeSlots_head {s : State} {i : Slot} (hi : s.entry i = none) (below : ∀ j, j < i → (s.entry j).isSome = true) :
    ∃ rest, s.freeSlots = i :: rest := by
  have hfind : (List.finRange 64).find? (fun j => (s.entry j).isNone) = some i := by
    refine find?_first (key := Fin.val) (by decide) (List.mem_finRange i) (by simp [hi]) fun j hj => ?_
    by_contra hlt
    have := below j (Fin.lt_def.mpr (Nat.not_le.mp hlt))
    simp_all
  rw [← List.head?_filter] at hfind
  exact ⟨_, (List.eq_cons_of_mem_head? hfind)⟩

/-- FETCH_ISSUE where everything it needs is there. -/
theorem exec_fetchIssue {s : State} {b : Block} {i : Slot} {q : SqNo} {credit : Nat} (hrun : s.ctl.state = .running)
    (hnone : s.fetcher.outstanding = none) (hb : s.block = some b) (hi : s.entry i = none)
    (below : ∀ j, j < i → (s.entry j).isSome = true) (hq : s.chooseSq = some (q, credit)) :
    exec .fetchIssue s = .next { s with
      fetcher := { s.fetcher with
        turn := q
        credit := credit - 1
        outstanding := some
          { kind := .recordFetch q i
            extent := { address := b.sqs[q].base + BitVec.ofNat 40 (32 * s.fetcher.rings[q].head), size := 32,
                        bytes := [] } } }
      table := s.table.set i (some { sq := q, cq := b.sqs[q].cq, header := none }) } := by
  obtain ⟨rest, hfree⟩ := State.freeSlots_head hi below
  simp [exec, execFetchIssue, hrun, hnone, hb, hfree, hq, recordFetch]

/-- Settles O27: by what the fetcher chooses. -/
theorem fetchIssues : Obligations.FetchIssues := by
  intro s
  constructor
  · intro hnot
    dsimp only [exec, execFetchIssue]
    split
    · next hrun =>
      split
      · next hfree hchoose =>
        exfalso
        rcases hnot with h | h | h | h
        · exact h hrun.1
        · exact h hrun.2
        · have : s.freeSlots = [] := by
            simpa [State.freeSlots, Option.isSome_iff_ne_none] using h
          simp_all
        · exact h _ ((s.eligible_iff _).mp (State.chooseSq_eligible hchoose))
      · rfl
    · rfl
  intro b i hrun hnone hb hi below turn issued
  refine ⟨fun hmay hcredit => exec_fetchIssue hrun hnone hb hi below ?_, fun q hnot hmay first =>
    exec_fetchIssue hrun hnone hb hi below ?_⟩
  · rw [State.chooseSq, if_pos ⟨(s.eligible_iff _).mpr hmay, hcredit⟩]
  · rw [State.chooseSq, if_neg fun h => hnot ⟨(s.eligible_iff _).mp h.1, h.2⟩,
      searchAfter_ringNumbers ((s.eligible_iff q).mpr hmay) fun p hp => first p ((s.eligible_iff p).mp hp)]
    simp [hb]

end Sys2Proof.Machine

/-! PROOFS of O30 (records completed at once) and O31 (records routed). -/

namespace Sys2Proof.Machine

/-- What the part becomes as a record fetch ends OK: the record is dispatched, the turn's credit settled, and the dispatcher
offers what it holds. -/
theorem exec_recordFetchEnd {s : State} {t : Transfer} {q : SqNo} {i : Slot} (h : s.inTransfer t)
    (ht : t.kind = .recordFetch q i) (r : Record) :
    exec (.recordFetchEnd (.ok r)) s =
      .next (State.settle [.dispatcher] settleBound (((s.afterFetch q).dispatch q i r.toList).giveUpCredit q)) := by
  dsimp only [exec, execRecordFetchEnd]
  rw [State.endTransfer_acts s _ _ t h.1 (by simp [ht, TransferKind.fetchOf]) h.2]
  simp only [ht, TransferKind.fetchOf]
  rfl

theorem Entry.filled_eq (e : Entry) (bytes : List Byte) (line : Option LineNo) :
    { e with header := some (headerOf bytes line) } = e.filled bytes line := by
  simp [Entry.filled, headerOf, beq_eq_decide]

/-- The state in which a record that was fetched for SQ `q` into entry `i` goes to its destination. -/
def State.headed (s : State) (q : SqNo) (i : Slot) (e : Entry) (bytes : List Byte) (line : Option LineNo) : State :=
  (s.afterFetch q).setEntry i (some (e.filled bytes line))

theorem State.dispatch_refused {s : State} {q : SqNo} {i : Slot} {e : Entry} {bytes : List Byte} {st : Status}
    {line : Option LineNo} (he : s.entry i = some e) (hv : verdict s.block s.lines bytes = .refused st line) :
    (s.afterFetch q).dispatch q i bytes = (s.headed q i e bytes line).completeAtOnce i st := by
  have hv' : verdict (s.afterFetch q).block (s.afterFetch q).lines bytes = .refused st line := hv
  have he' : (s.afterFetch q).entry i = some e := he
  simp only [State.dispatch, hv', he', Option.map_some, Entry.filled_eq]
  rfl

theorem State.dispatch_accepted {s : State} {q : SqNo} {i : Slot} {e : Entry} {bytes : List Byte} {line : Option LineNo}
    {b : Body} (he : s.entry i = some e) (hv : verdict s.block s.lines bytes = .accepted line b) :
    (s.afterFetch q).dispatch q i bytes = (s.headed q i e bytes line).route q i (line.getD 0) b := by
  have hv' : verdict (s.afterFetch q).block (s.afterFetch q).lines bytes = .accepted line b := hv
  have he' : (s.afterFetch q).entry i = some e := he
  simp only [State.dispatch, hv', he', Option.map_some, Entry.filled_eq]
  rfl

/-- In DRAINING a data record completes STOPPED at once (01 R13). -/
theorem State.route_draining {s : State} (q : SqNo) (i : Slot) (n : LineNo) {b : Body} (hdrain : s.ctl.state = .draining)
    (hfence : b ≠ .fence) (hcommand : ∀ c, b ≠ .command c) : s.route q i n b = s.completeAtOnce i .stopped := by
  cases b with
  | fence => exact absurd rfl hfence
  | command c => exact absurd rfl (hcommand c)
  | send w => simp [State.route, hdrain]
  | buffer w => simp [State.route, hdrain]
  | poll w => simp [State.route, hdrain]

/-- The credit is given up exactly where the SQ that holds the turn may supply no fetch any more (08 R143). -/
theorem State.giveUpCredit_leaves {s t : State} {q : SqNo} (hturn : t.fetcher.turn = s.fetcher.turn) :
    s.DispatchLeaves t q (t.giveUpCredit q) := by
  have hmay : ¬ t.maySupply q ↔ t.eligible q = false := by rw [← t.eligible_iff, Bool.not_eq_true]
  unfold State.giveUpCredit
  rw [hturn]
  exact ⟨fun h hnot => if_pos ⟨h, hmay.mp hnot⟩, fun h => if_neg fun hg => h.elim (absurd hg.1) (hmay.mpr hg.2)⟩

/-- Whether the credit is given up rests on the fetcher, the block and the fences; what the fences wait for is no matter. -/
theorem State.giveUpCredit_credit {s : State} (q : SqNo) :
    s.giveUpCredit q = { s with fetcher := { s.fetcher with
      credit := if s.fetcher.turn = q ∧ s.eligible q = false then 0 else s.fetcher.credit } } := by
  unfold State.giveUpCredit
  split <;> rfl

theorem State.eligible_withAdmitted (s : State) (i : Slot) (e : Entry) (r : Result) (q : SqNo) :
    (s.withAdmitted i e r).eligible q = s.eligible q := by
  have hfence : (s.withAdmitted i e r).fences[q].isNone = s.fences[q].isNone := by simp [State.withAdmitted]
  unfold State.eligible
  rw [hfence]
  rfl

/-- The dispatcher holds one completion more, and offers what it holds. -/
theorem State.dispatcher_settles {s : State} {i : Slot} {e : Entry} {r : Result} (q : SqNo)
    (hwait : s.dispatcherWaits) :
    let kept : State := { s.setEntry i (some e) with dispatched := s.dispatched ++ [(i, r)] }
    ∃ v, s.CompletedAtOnce v i e r ∧ v.fetcher = s.fetcher ∧
      State.settle [.dispatcher] settleBound (kept.giveUpCredit q) = v.giveUpCredit q := by
  intro kept
  by_cases hroom : s.hasRoom
  · refine ⟨s.withAdmitted i e r, ⟨fun _ => rfl, fun h => absurd hroom h, fun h => absurd hroom h⟩, rfl, ?_⟩
    have hdone : s.dispatched = [] := by
      by_contra hne
      simpa [hroom.2] using hwait.mp hne
    have hentry : (kept.giveUpCredit q).entry i = some e := by simp [State.giveUpCredit_credit, kept, State.entry, State.setEntry]
    have henter := State.enterRecord_of_entry (kept.giveUpCredit q) i r e hentry
    have hmoved : ((kept.giveUpCredit q).enterRecord i r).producerMovesOn i r .dispatcher =
        (s.withAdmitted i e r).giveUpCredit q := by
      rw [henter, State.giveUpCredit_credit, State.giveUpCredit_credit, State.eligible_withAdmitted]
      simp [State.producerMovesOn, State.leaveWaitSets, State.withAdmitted, kept, hdone, State.setEntry]
      rfl
    rw [State.settle_single_enters (i := i) (r := r) (by simp [State.onOffer, State.giveUpCredit_credit, kept, hdone])
      (by rw [State.giveUpCredit_credit]; exact hroom)
      (by rw [hmoved]; simp [State.onOffer, State.giveUpCredit_credit, State.withAdmitted, hdone])]
    exact hmoved
  · by_cases hdone : s.dispatched = []
    · have hnot : .dispatcher ∉ s.backlog.waiting := fun hw => absurd hdone (hwait.mpr hw)
      refine ⟨kept.withWaiting .dispatcher, ⟨fun h => absurd h hroom, fun _ _ => rfl, fun _ h => absurd hdone h⟩, rfl, ?_⟩
      have hoff : (kept.giveUpCredit q).onOffer .dispatcher = some (i, r) := by
        simp [State.onOffer, State.giveUpCredit_credit, kept, hdone]
      have hwaits := State.settle_one_waits [.dispatcher] 191 (kept.giveUpCredit q) .dispatcher
        (State.newOffers_single hoff (by rw [State.giveUpCredit_credit]; exact hnot))
        (by rw [State.giveUpCredit_credit]; exact hroom)
      refine Eq.trans hwaits ?_
      rw [State.giveUpCredit_credit, State.giveUpCredit_credit]
      rfl
    · refine ⟨kept, ⟨fun h => absurd h hroom, fun _ h => absurd h hdone, fun _ _ => rfl⟩, rfl, ?_⟩
      exact State.settle_single_kept (by rw [State.giveUpCredit_credit]; exact hwait.mp hdone)

/-- Settles O30: either way the dispatcher holds one completion more, which it offers. -/
theorem recordCompletedAtOnce : Obligations.RecordCompletedAtOnce := by
  intro s t q i e r st line h ht he hwait hv filled result
  refine ⟨by simp [Entry.completion, filled, Entry.filled, result], ?_⟩
  have hdispatch : (s.afterFetch q).dispatch q i r.toList = (s.headed q i e r.toList line).completeAtOnce i st := by
    rcases hv with hv | ⟨rfl, hdrain, b, hv, hfence, hcommand⟩
    · exact State.dispatch_refused he hv
    · rw [State.dispatch_accepted he hv]
      exact State.route_draining q i _ hdrain hfence hcommand
  obtain ⟨v, hv, hfetcher, hsettle⟩ := State.dispatcher_settles (s := s.afterFetch q) (i := i) (e := filled) (r := result) q hwait
  refine ⟨v, v.giveUpCredit q, hv, State.giveUpCredit_leaves (congrArg Fetcher.turn hfetcher :), ?_⟩
  rw [exec_recordFetchEnd h ht, hdispatch]
  exact congrArg _ hsettle

/-- A record that is routed leaves the dispatcher nothing new to offer. -/
theorem State.settle_routed {s w : State} (q : SqNo) (hwait : s.dispatcherWaits) (hdispatched : w.dispatched = s.dispatched)
    (hbacklog : w.backlog = s.backlog) : State.settle [.dispatcher] settleBound (w.giveUpCredit q) = w.giveUpCredit q := by
  by_cases hdone : s.dispatched = []
  · refine State.settle_of_no_offers _ _ _ ?_
    simp [State.newOffers, State.onOffer, State.giveUpCredit_credit, hdispatched, hdone]
  · refine State.settle_single_kept ?_
    rw [State.giveUpCredit_credit, hbacklog]
    exact hwait.mp hdone

theorem State.mem_slotsOf (s : State) (q : SqNo) (i : Slot) : i ∈ s.slotsOf q ↔ ∃ e, s.entry i = some e ∧ e.sq = q := by
  unfold State.slotsOf
  simp only [List.mem_filter, List.mem_finRange, true_and]
  cases s.entry i <;> simp

theorem State.nodup_slotsOf (s : State) (q : SqNo) : (s.slotsOf q).Nodup := (List.nodup_finRange 64).filter _

/-- Settles O31: by the destination of the record's body. -/
theorem recordRouted : Obligations.RecordRouted := by
  intro s t q i e r line body h ht he hwait hv n l v leaves listed
  have routed (w : State) (hw : v.route q i n body = w) (hdispatched : w.dispatched = s.dispatched)
      (hbacklog : w.backlog = s.backlog) (hfetcher : w.fetcher = v.fetcher) : leaves w := by
    refine ⟨w.giveUpCredit q, ?_, State.giveUpCredit_leaves (congrArg Fetcher.turn hfetcher :)⟩
    rw [exec_recordFetchEnd h ht, State.dispatch_accepted he hv]
    exact congrArg _ ((congrArg (fun w => State.settle _ _ (State.giveUpCredit w q)) hw).trans
      (State.settle_routed q hwait hdispatched hbacklog))
  refine ⟨fun c hb => ?_, fun hb => ?_, fun hdrain => ⟨fun b hb hmode => ?_, fun b hb hmode => ?_, fun b hb => ?_,
    fun b hb hlist => ?_, fun b hb hlist => ?_⟩⟩
  · refine routed _ ?_ rfl rfl rfl
    subst hb
    have hjoin : (v.line n).joinControl i c = { l with control :=
        l.control ++ [{ slot := i, phase := if l.control = [] then .active else .listed, body := c }] } := by
      have hempty : ((v.line n).control.isEmpty = true) = (l.control = []) := propext List.isEmpty_iff
      simp only [Line.joinControl, hempty]
      rfl
    exact congrArg (v.setLine n) hjoin
  · refine ⟨(v.slotsOf q).erase i, (v.nodup_slotsOf q).erase i, fun j => ?_, routed _ ?_ rfl rfl rfl⟩
    · rw [(v.nodup_slotsOf q).mem_erase_iff, v.mem_slotsOf]
    · subst hb
      rfl
  all_goals
    have hdrain' : ¬ v.ctl.state = .draining := hdrain
    refine routed _ ?_ rfl rfl rfl
    subst hb
  · have hmode' : (v.line n).isPoll = false := hmode
    simp only [State.route, hdrain', hmode', if_false, Bool.false_eq_true]
    rfl
  · have hmode' : (v.line n).isPoll = true := hmode
    simp only [State.route, hdrain', hmode', if_false, if_true]
    rfl
  · simp only [State.route, hdrain', if_false]
    rfl
  · have hlist' : (v.line n).filler.list.isEmpty = false := List.isEmpty_eq_false_iff.mpr hlist
    simp only [State.route, hdrain', if_false, Line.joinBuffers, hlist', Bool.false_eq_true]
    rfl
  · have hlist' : (v.line n).filler.list.isEmpty = true := List.isEmpty_iff.mpr hlist
    simp only [State.route, hdrain', if_false, Line.joinBuffers, hlist', if_true]
    rfl

end Sys2Proof.Machine

/-! PROOFS of O34 (the memory port) and O35 to O38 (the backlog and the completion writer). -/

namespace Sys2Proof.Machine

/-! ### The memory port (10 R170, R171, R174) -/

/-- Under a waiting controller reset the end of a transfer is the transfer's end alone (10 R174). -/
theorem State.endTransfer_discarded {s : State} {k : TransferKind → Bool}
    {act : Transfer → State → Host.Outcome State Fault Refusal} {t : Transfer} (ht : s.port.inFlight = some t)
    (hr : s.ctl.resetWaits = true) (hk : k t.kind = true) : s.endTransfer k act = .next s.transferOver := by
  simp [State.endTransfer, ht, hk, hr]

theorem transfer_discarded (s : State) (t : Transfer) (ht : s.port.inFlight = some t) (hr : s.ctl.resetWaits = true) :
    let ends (i : Instr) := exec i s = .next { s with port := { s.port with inFlight := none } }
    match t.kind with
    | .descriptorRead _ => ∀ e, ends (.descriptorReadEnd e)
    | .recordFetch _ _ => ∀ e, ends (.recordFetchEnd e)
    | .txDataRead n | .payloadRead n => ∀ e cts, ends (.txDataReadEnd n e cts)
    | .rxBufferWrite n => ∀ e, ends (.rxBufferWriteEnd n e)
    | .replyWrite n => ∀ e, ends (.replyWriteEnd n e)
    | .reportWrite _ => ∀ e, ends (.reportWriteEnd e)
    | .completionWrite _ => ∀ e, ends (.completionWriteEnd e) := by
  intro ends
  have h {k : TransferKind → Bool} {act : Transfer → State → Host.Outcome State Fault Refusal} (hk : k t.kind = true) :
      s.endTransfer k act = .next { s with port := { s.port with inFlight := none } } :=
    State.endTransfer_discarded ht hr hk
  cases hkind : t.kind
  all_goals
    dsimp only [ends, exec, execDescriptorReadEnd, execRecordFetchEnd, execTxDataReadEnd, execRxBufferWriteEnd,
      execReplyWriteEnd, execReportWriteEnd, execCompletionWriteEnd]
    intros
    refine h ?_
    simp [hkind, TransferKind.descriptorIndex, TransferKind.fetchOf, TransferKind.reportOf, TransferKind.completionOf]

theorem portRequesters_positions : portRequesters.map PortRequester.position = List.range' 1 portRequesters.length := by
  decide

theorem mem_portRequesters (r : PortRequester) : r ∈ portRequesters := by
  cases r <;> simp [portRequesters, mem_lineNumbers]

/-- A search for the first that answers is the search for the first that has an answer. -/
theorem findSome?_eq_of_find? {α β : Type} {f : α → Option β} {xs : List α} {x : α} {y : β}
    (h : xs.find? (fun x => (f x).isSome) = some x) (hy : f x = some y) : xs.findSome? f = some y := by
  induction xs with
  | nil => cases h
  | cons z zs ih =>
    rw [List.findSome?_cons]
    cases hz : f z with
    | some w =>
      rw [List.find?_cons_of_pos (by simp [hz])] at h
      cases h
      rw [← hy, hz]
    | none =>
      rw [List.find?_cons_of_neg (by simp [hz])] at h
      exact ih h

theorem exec_portGrant_some {s : State} {t : Transfer} {r : PortRequester} (h : s.nextGrant = some (t, r)) :
    exec .portGrant s = .next { s with port := { inFlight := some t, last := r } } := by
  simp [exec, execPortGrant, h]

theorem exec_portGrant_none {s : State} (h : s.nextGrant = none) : exec .portGrant s = .next s := by
  simp [exec, execPortGrant, h]

theorem State.nextGrant_round {s : State} (hopen : s.ctl.windowOpen = true) (hfree : s.port.inFlight = none)
    (hw : s.writer.outstanding = none) :
    s.nextGrant =
      (searchAfter portRequesters s.port.last).findSome? fun r => (s.requestOf r).map fun t => (t, r) := by
  simp [State.nextGrant, hopen, hfree, hw]

/-- A line presents its write, and its read where it has none (10 R170). -/
theorem State.requestOf_line (s : State) (n : LineNo) :
    s.requestOf (.line n) =
      match if (s.line n).record.mode = .poll then (s.line n).poll.outstanding else (s.line n).filler.outstanding with
      | some x => some { kind := if (s.line n).record.mode = .poll then .replyWrite n else .rxBufferWrite n, extent := x }
      | none => (s.line n).tx.outstanding.map fun x =>
        { kind := if ((s.line n).tx.job.bind TxJob.station).isSome then .payloadRead n else .txDataRead n, extent := x } := by
  have hmode : ((s.line n).isPoll = true) = ((s.line n).record.mode = .poll) := by simp [Line.isPoll]
  simp only [State.requestOf, Line.request, hmode] <;> rfl

/-- Settles O34: by what the port grants, and by the request a line presents. -/
theorem portGrantsAndReset : Obligations.PortGrantsAndReset := by
  refine ⟨transfer_discarded, fun s => ⟨fun hnot => exec_portGrant_none ?_, fun hopen hfree => ⟨fun t hw => ?_,
    fun hw => ⟨fun r t hr first => exec_portGrant_some ?_, fun hnone => exec_portGrant_none ?_⟩⟩, ?_⟩⟩
  · rcases hnot with h | h
    · simp [State.nextGrant, Option.isSome_iff_ne_none, h]
    · simp [State.nextGrant, Controller.windowOpen, h]
  · have hnext : s.nextGrant = some (t, s.port.last) := by simp [State.nextGrant, hopen, hfree, hw]
    exact exec_portGrant_some hnext
  · rw [State.nextGrant_round hopen hfree hw]
    refine findSome?_eq_of_find? (x := r) ?_ (by simp [hr])
    refine searchAfter_find? portRequesters_positions (mem_portRequesters _) (mem_portRequesters r) (by simp [hr]) fun p hp => ?_
    have hp' : (s.requestOf p).isSome = true := by simpa using hp
    exact first p hp'
  · rw [State.nextGrant_round hopen hfree hw]
    simp [hnone]
  · intro n l write
    have hrequest := State.requestOf_line s n
    change s.requestOf (.line n) = match write with
      | some x => some { kind := if l.record.mode = .poll then .replyWrite n else .rxBufferWrite n, extent := x }
      | none => l.tx.outstanding.map fun x =>
        { kind := if (l.tx.job.bind TxJob.station).isSome then .payloadRead n else .txDataRead n, extent := x } at hrequest
    refine ⟨fun x hx => ⟨_, by rw [hrequest, hx], rfl⟩, fun x hx ht => ⟨_, by rw [hrequest, hx, ht]; rfl, ?_⟩, fun hx ht => ?_⟩
    · split
      · exact .inr rfl
      · exact .inl rfl
    · rw [hrequest, hx, ht]
      rfl

/-! ### The backlog (01 R17 to R21) -/

theorem State.mayOfferEvent_iff (s : State) (n : LineNo) :
    s.mayOfferEvent n = true ↔ (s.line n).event.pending ≠ 0 ∧ (s.line n).event.queued = false ∧
      .event n ∉ s.backlog.waiting ∧ s.ctl.state = .running ∧ cqSize s.block (s.line n).record.eventCq ≠ 0 := by
  simp [State.mayOfferEvent, and_assoc]

theorem State.offer_of_room {s : State} (h : s.hasRoom) (p : Producer) : s.offer p = s.enterBacklog p :=
  State.offer_admitted s p h.1 h.2

theorem State.offer_of_noRoom {s : State} (h : ¬ s.hasRoom) (p : Producer) : s.offer p = s.withWaiting p := by
  apply State.offer_waits
  by_cases hl : s.backlog.entries.length < Config.backlogSlots
  · exact .inr fun hw => h ⟨hl, hw⟩
  · exact .inl (Nat.not_lt.mp hl)

/-- Settles O35: by whether the line may offer an event entry. -/
theorem eventOffered : Obligations.EventOffered := by
  intro n s l may
  have hexec (h : may) : exec (.eventOffer n) s = .next (s.offer (.event n)) := by
    simp [exec, execEventOffer, (s.mayOfferEvent_iff n).mpr h]
  refine ⟨fun h hroom => ?_, fun h hroom => ?_, fun h => ?_⟩
  · rw [hexec h, State.offer_of_room hroom]
    rfl
  · rw [hexec h, State.offer_of_noRoom hroom]
  · dsimp only [exec, execEventOffer]
    rw [if_neg fun hm => h ((s.mayOfferEvent_iff n).mp hm)]

theorem allProducers_positions : allProducers.map Producer.position = List.range' 1 allProducers.length := by
  decide

theorem mem_allProducers (p : Producer) : p ∈ allProducers := by
  cases p <;> simp [allProducers, mem_lineNumbers]

theorem State.enterBacklog_lastGranted (s : State) (p : Producer) :
    (s.enterBacklog p).backlog.lastGranted = s.backlog.lastGranted := by
  cases hp : s.onOffer p with
  | some x =>
    rw [State.enterBacklog_of_offer (slot := x.1) (r := x.2) hp, State.producerMovesOn_backlog]
    unfold State.enterRecord
    split <;> rfl
  | none =>
    by_cases he : ∃ n, p = .event n
    · obtain ⟨n, rfl⟩ := he
      rfl
    · rw [State.enterBacklog_of_none hp (by simpa using he)]

/-- The offers that follow an admission add to the backlog and to those waiting, and leave the position last granted. -/
theorem State.settle_backlog_grows (ps : List Producer) (k : Nat) (s : State) :
    ∃ more others, (State.settle ps k s).backlog =
      { s.backlog with entries := s.backlog.entries ++ more, waiting := s.backlog.waiting ++ others } := by
  refine State.settle_induction ps (P := fun t => ∃ more others, t.backlog =
    { s.backlog with entries := s.backlog.entries ++ more, waiting := s.backlog.waiting ++ others })
    (fun _ _ h => h) ?_ ?_ k ⟨[], [], by simp⟩
  · rintro t p ⟨more, others, ht⟩ - - - -
    obtain ⟨one, hone⟩ := State.enterBacklog_entries_grow t p
    refine ⟨more ++ one, others, ?_⟩
    have hwaiting := State.enterBacklog_waiting t p
    have hlast := State.enterBacklog_lastGranted t p
    rw [ht] at hone hwaiting hlast
    dsimp only at hone hwaiting hlast ⊢
    rw [← List.append_assoc, ← hone, ← hwaiting, ← hlast]
  · rintro t p ⟨more, others, ht⟩ - - -
    exact ⟨more, others ++ [p], by simp [State.withWaiting, ht]⟩

/-- BACKLOG_GRANT with a slot free and `p` the first producer waiting. -/
theorem exec_backlogGrant {s : State} {p : Producer} (hfree : s.backlog.entries.length < 32) (hp : p ∈ s.backlog.waiting)
    (first : ∀ o ∈ s.backlog.waiting, (p.position + 65 - s.backlog.lastGranted.position) % 66 ≤
      (o.position + 65 - s.backlog.lastGranted.position) % 66) :
    exec .backlogGrant s = .next (State.settle p.siblings settleBound (State.enterBacklog
      { s with backlog := { s.backlog with waiting := s.backlog.waiting.erase p, lastGranted := p } } p)) := by
  have hfind : (searchAfter allProducers s.backlog.lastGranted).find? (fun p => s.backlog.waiting.contains p) = some p :=
    searchAfter_find? allProducers_positions (mem_allProducers _) (mem_allProducers p) (by simpa using hp) fun o ho =>
      first o (by simpa using ho)
  dsimp only [exec, execBacklogGrant]
  rw [if_pos (show _ < Config.backlogSlots from hfree), hfind]

/-- An admission of a record's completion: the entry is freed, and the producer's list moves on. -/
theorem State.enterBacklog_admitted {s : State} {p : Producer} {i : Slot} {e : Entry} {r : Result} (he : s.entry i = some e)
    (hp : s.onOffer p = some (i, r)) : s.enterBacklog p = (s.withAdmitted i e r).producerMovesOn i r p := by
  rw [State.enterBacklog_of_offer hp, State.enterRecord_of_entry s i r e he]
  rfl

theorem Line.recordEntered_of_noAbort (l : Line) (i : Slot) (h : ∀ waitFor count, l.progress ≠ .abort waitFor count) :
    l.recordEntered i = l := by
  unfold Line.recordEntered
  split
  · next waitFor count hp => exact absurd hp (h waitFor count)
  · rfl

/-- BACKLOG_GRANT: the admission of the producer granted, and the offers that may follow it. -/
theorem backlogGrant_admits {s : State} {p : Producer} (hfree : s.backlog.entries.length < 32) (hp : p ∈ s.backlog.waiting)
    (first : ∀ o ∈ s.backlog.waiting, (p.position + 65 - s.backlog.lastGranted.position) % 66 ≤
      (o.position + 65 - s.backlog.lastGranted.position) % 66) {entry : BacklogEntry}
    (hentry : (State.enterBacklog { s with backlog := { s.backlog with
      waiting := s.backlog.waiting.erase p, lastGranted := p } } p).backlog.entries = s.backlog.entries ++ [entry]) :
    let t := State.settle p.siblings settleBound (State.enterBacklog
      { s with backlog := { s.backlog with waiting := s.backlog.waiting.erase p, lastGranted := p } } p)
    exec .backlogGrant s = .next t ∧ t.backlog.lastGranted = p ∧
      ∃ more others, t.backlog.entries = s.backlog.entries ++ entry :: more ∧
        t.backlog.waiting = s.backlog.waiting.erase p ++ others := by
  obtain ⟨more, others, hgrows⟩ := State.settle_backlog_grows p.siblings settleBound (State.enterBacklog
    { s with backlog := { s.backlog with waiting := s.backlog.waiting.erase p, lastGranted := p } } p)
  refine ⟨exec_backlogGrant hfree hp first, ?_, more, others, ?_, ?_⟩
  · rw [hgrows]
    exact State.enterBacklog_lastGranted _ p
  · rw [hgrows]
    exact (congrArg (· ++ more) hentry).trans (by simp)
  · rw [hgrows]
    exact congrArg (· ++ others) (State.enterBacklog_waiting _ p)

theorem Line.recordEntered_progress (l : Line) (i : Slot) :
    (l.recordEntered i).progress = .flushHanded ↔ l.progress = .flushHanded := by
  unfold Line.recordEntered
  split
  · next waitFor count hp => split <;> simp [hp, Line.finishCommand]
  · rfl

/-- Without a FLUSH_RX in progress the next buffer just moves up, and an ABORT_LINE waits for the record no longer. -/
theorem Line.bufferEntered_of_noFlush (l : Line) (i : Slot) (r : Result) (h : l.progress ≠ .flush)
    (h' : l.progress ≠ .flushHanded) : l.bufferEntered i r = l.nextBuffer.recordEntered i := by
  have hprogress : l.nextBuffer.progress = l.progress := by
    unfold Line.nextBuffer
    split <;> split <;> rfl
  have hflushed : l.nextBuffer.flushedEntered i r = l.nextBuffer := by
    unfold Line.flushedEntered
    split
    · exact if_neg fun hf => h (hprogress ▸ hf.2)
    · rfl
  unfold Line.bufferEntered
  rw [hflushed]
  exact if_neg fun hf => h' (hprogress ▸ (Line.recordEntered_progress _ i).mp hf)

/-- Settles O36: by the admission, and by what its producer's list makes of it. -/
theorem backlogGrants : Obligations.BacklogGrants := by
  refine ⟨fun s => ⟨fun h => ?_, ?_⟩, fun s p => ⟨fun h => State.offer_of_room h p, fun h => State.offer_of_noRoom h p⟩,
    fun s i e r he => ⟨fun h => ?_, fun h => ?_, ?_⟩, fun c cs hc => ?_,
    fun l i r => ⟨l.recordEntered_of_noAbort i, l.nextBuffer, l.nextBuffer_left, fun h h' => ?_⟩⟩
  · dsimp only [exec, execBacklogGrant]
    rcases h with h | h
    · rw [if_neg (show ¬ _ < Config.backlogSlots from Nat.not_lt.mpr h)]
    · have hnobody : (searchAfter allProducers s.backlog.lastGranted).find? (fun p => s.backlog.waiting.contains p) = none := by
        simp [h]
      rw [hnobody]
      exact ite_self _
  · intro p hfree hp first after granted
    refine ⟨fun n hn => ?_, fun i r hoff e he => ?_, ?_⟩
    · subst hn
      refine ⟨_, backlogGrant_admits hfree hp first rfl, ?_, rfl⟩
      rw [Producer.siblings, State.settle_of_no_offers [] _ _ rfl]
      simp [State.enterBacklog, State.enterEvent, State.line, State.setLine]
    · have hoff' : granted.onOffer p = some (i, r) := by rw [← hoff]; cases p <;> rfl
      have hadmitted := State.enterBacklog_admitted (s := granted) he hoff'
      refine ⟨_, backlogGrant_admits hfree hp first ?_, ?_⟩
      · rw [hadmitted, State.producerMovesOn_backlog]
        rfl
      · apply State.settle_entry_none
        rw [State.enterBacklog_entry hoff', if_pos rfl]
    · intro t hquiet
      rw [exec_backlogGrant hfree hp first]
      refine congrArg _ (State.settle_of_no_offers _ _ _ ?_)
      rw [State.newOffers, List.filter_eq_nil_iff]
      intro o _ ho
      simp only [Bool.and_eq_true, Bool.not_eq_true', List.contains_eq_mem, decide_eq_false_iff_not] at ho
      exact ho.2 (hquiet o ho.1)
  · exact State.enterBacklog_admitted he h
  · exact State.enterBacklog_admitted he h
  · intro n l becomes
    refine ⟨fun h => ?_, fun h => ?_, fun hmode h => ?_, fun hmode h => ?_⟩
    · exact State.enterBacklog_admitted he h
    · exact State.enterBacklog_admitted he h
    · have hpoll : ((s.withAdmitted i e r).line n).isPoll = true := beq_iff_eq.mpr hmode
      rw [State.enterBacklog_admitted he h]
      simp only [State.producerMovesOn, hpoll, if_true]
      rfl
    · have hpoll : ((s.withAdmitted i e r).line n).isPoll = false := by
        have : l.record.mode ≠ .poll := by rw [hmode]; simp
        exact beq_eq_false_iff_ne.mpr this
      rw [State.enterBacklog_admitted he h]
      simp only [State.producerMovesOn, hpoll, Bool.false_eq_true, if_false]
      rfl
  · simp [activateHead, hc]
  · exact l.bufferEntered_of_noFlush i r h h'

/-! ### The completion writer (08 R148, R149) -/

section OldestEntry

variable {q : CqNo} {e : BacklogEntry} {before behind : List BacklogEntry}

/-- The oldest entry for a CQ is the one behind entries of other CQs alone. -/
theorem find?_oldest (hbefore : ∀ x ∈ before, x.cq ≠ q) (he : e.cq = q) :
    (before ++ e :: behind).find? (fun x => x.cq == q) = some e := by
  rw [List.find?_append, List.find?_eq_none.mpr (by simpa using hbefore), Option.none_or,
    List.find?_cons_of_pos (by simpa using he)]

theorem removeOldest_split (hbefore : ∀ x ∈ before, x.cq ≠ q) (he : e.cq = q) :
    removeOldest q (before ++ e :: behind) = before ++ behind := by
  induction before with
  | nil => simp [removeOldest, he]
  | cons x xs ih =>
    rw [List.forall_mem_cons] at hbefore
    simp [removeOldest, hbefore.1, ih hbefore.2]

theorem replaceOldest_split (hbefore : ∀ x ∈ before, x.cq ≠ q) (he : e.cq = q) (new : BacklogEntry) :
    replaceOldest q new (before ++ e :: behind) = before ++ new :: behind := by
  induction before with
  | nil => simp [replaceOldest, he]
  | cons x xs ih =>
    rw [List.forall_mem_cons] at hbefore
    simp [replaceOldest, hbefore.1, ih hbefore.2]

end OldestEntry

theorem State.serviceable_iff (s : State) (q : CqNo) :
    s.serviceable q = true ↔ (∃ e ∈ s.backlog.entries, e.cq = q) ∧ s.writer.rings[q].occupancy < cqSize s.block q := by
  simp [State.serviceable, State.oldestFor]

/-- Settles O37: by the entry that the search for a serviceable CQ leads to. -/
theorem writerTakesEntry : Obligations.WriterTakesEntry := by
  intro s serviceable
  refine ⟨fun hnot => ?_, ?_⟩
  · dsimp only [exec, execWriterTakeEntry]
    split
    · next hready =>
      split
      · next b q hb hq =>
        exfalso
        rcases hnot with h | h | h
        · exact (Controller.active_iff _).not.mpr (by tauto) hready.1
        · exact h hready.2
        · exact h q ((s.serviceable_iff q).mp (List.find?_some hq))
      · rfl
    · rfl
  · intro b q e before behind hactive hnone hb hsplit hbefore he hroom first writing
    have hoccupied : s.writer.rings[q].occupancy < cqSize s.block q := by
      rw [hb]
      exact hroom
    have hexec : exec .writerTakeEntry s = .next (s.takeEntry b q e) := by
      have hq : s.serviceable q = true :=
        (s.serviceable_iff q).mpr ⟨⟨e, by simp [hsplit], he⟩, hoccupied⟩
      have hfind := searchAfter_ringNumbers hq fun p hp => first p ((s.serviceable_iff p).mp hp)
      have holdest : s.oldestFor q = some e := by
        rw [State.oldestFor, hsplit, find?_oldest hbefore he]
      dsimp only [exec, execWriterTakeEntry]
      rw [if_pos ⟨(Controller.active_iff _).mpr hactive, hnone⟩]
      simp only [hb, hfind, holdest]
    refine ⟨fun urgent c hc => ?_, fun n hn => ?_⟩
    · rw [hexec, hc]
      rfl
    · intro l c
      rw [hexec, hn]
      simp only [State.takeEntry]
      rw [hsplit, replaceOldest_split hbefore he]
      rfl

/-- What the notification unit makes of a completion written (09 R155, R156). -/
theorem State.noteWritten_of_enabled {s : State} {b : Block} (q : CqNo) (urgent : Bool) (hb : s.block = some b)
    (henabled : notifyEnabled s.block q = true) :
    s.noteWritten q urgent =
      (s.setCqNotice q (s.notice.cqs[q].counted b.cqs[q].threshold b.cqs[q].delay urgent)).updateNotify := by
  unfold State.noteWritten
  simp only [hb]
  rw [hb] at henabled
  exact if_pos henabled

theorem State.noteWritten_of_not {s : State} (q : CqNo) (urgent : Bool) (hnot : notifyEnabled s.block q = false) :
    s.noteWritten q urgent = s := by
  unfold State.noteWritten
  split
  · exact if_neg (by simp [hnot])
  · rfl

/-- Settles O38: by whether the CQ is notify-enabled. -/
theorem completionWritten : Obligations.CompletionWritten := by
  intro s t b q e before behind h ht hb hfollows hsplit hbefore he r tail c count enabled urgent
  have hurgent : e.urgent = true ↔ urgent := by
    cases e with
    | completion p u x => subst he; cases u <;> simp [BacklogEntry.urgent, urgent, BacklogEntry.cq]
    | event p n => simp [BacklogEntry.urgent, urgent]
  have henabled : notifyEnabled s.block q = true ↔ enabled := by simp [hb, notifyEnabled, enabled]
  set v : State := { s.transferOver with
    writer := { s.writer with
      outstanding := none
      rings := s.writer.rings.set q { tail, lap := if tail = 0 then !r.lap else r.lap, occupancy := r.occupancy + 1 } }
    backlog := { s.backlog with entries := before ++ behind } } with hv
  have hexec : exec (.completionWriteEnd .ok) s = .next (v.noteWritten q e.urgent) := by
    dsimp only [exec, execCompletionWriteEnd]
    rw [State.endTransfer_acts s _ _ t h.1 (by simp [ht, TransferKind.completionOf]) h.2]
    simp only [ht, TransferKind.completionOf, State.completionWritten]
    have holdest : s.transferOver.oldestFor q = some e := by
      have : s.transferOver.backlog.entries = before ++ e :: behind := hsplit
      rw [State.oldestFor, this, find?_oldest hbefore he]
    have hentries : removeOldest q s.transferOver.backlog.entries = before ++ behind := by
      have : s.transferOver.backlog.entries = before ++ e :: behind := hsplit
      rw [this, removeOldest_split hbefore he]
    have hsize : cqSize s.transferOver.block q = b.cqs[q].size := by
      have : s.transferOver.block = some b := hb
      rw [this]
      rfl
    rw [holdest, hentries, hsize]
    rfl
  rw [hexec]
  refine ⟨_, rfl, ?_⟩
  by_cases hen : enabled
  · rw [State.noteWritten_of_enabled (s := v) q _ hb (henabled.mpr hen)]
    refine ⟨State.updateNotify_follows _, ?_, fun h => absurd hen h, fun _ => ⟨?_, ?_, ?_⟩⟩
    · simp [State.updateNotify, State.setCqNotice, hv]
    · simp [State.updateNotify, State.setCqNotice, CqNotice.counted, saturate, hv, count, c]
    · simp [State.updateNotify, State.setCqNotice, CqNotice.counted, saturate, hv, count, c, hurgent, or_assoc]
    · simp [State.updateNotify, State.setCqNotice, CqNotice.counted, hv, c]
  · rw [State.noteWritten_of_not (s := v) q _ (Bool.eq_false_iff.mpr (henabled.not.mpr hen))]
    refine ⟨hfollows.congr rfl rfl, ?_, fun _ => rfl, fun h => absurd h hen⟩
    simp [hv]

end Sys2Proof.Machine

/-! PROOFS of O13: STOP and the end of the drain. -/

namespace Sys2Proof.Machine

/-! ### What the offers of a moment leave of a line -/

/-- The list `ys` holds no LISTED member that `xs` does not hold. -/
def NoNewListed {β : Type} (xs ys : List (Member β)) : Prop := ∀ m ∈ ys, m.phase = .listed → m ∈ xs

theorem NoNewListed.refl {β : Type} (xs : List (Member β)) : NoNewListed xs xs := fun _ hm _ => hm

theorem NoNewListed.trans {β : Type} {xs ys zs : List (Member β)} (h : NoNewListed xs ys) (k : NoNewListed ys zs) :
    NoNewListed xs zs := fun m hm hp => h m (k m hm hp) hp

theorem NoNewListed.tail {β : Type} (xs : List (Member β)) : NoNewListed xs xs.tail := fun _ hm _ => List.mem_of_mem_tail hm

theorem NoNewListed.finishHead {β : Type} (r : Result) (xs : List (Member β)) : NoNewListed xs (finishHead r xs) := by
  cases xs with
  | nil => exact .refl _
  | cons x xs =>
    intro m hm hp
    rcases List.mem_cons.mp hm with rfl | hm
    · cases hp
    · exact List.mem_cons_of_mem _ hm

theorem NoNewListed.activateHead {β : Type} (xs : List (Member β)) : NoNewListed xs (activateHead xs) := by
  cases xs with
  | nil => exact .refl _
  | cons x xs =>
    intro m hm hp
    rcases List.mem_cons.mp hm with rfl | hm
    · split at hp
      · cases hp
      · next hx => exact absurd hp hx
    · exact List.mem_cons_of_mem _ hm

/-- Line `k` after completions of line `l` have entered the backlog: its record, state, receive activity and stop flag are
as they were, and nothing new is LISTED. -/
structure Line.Advanced (l k : Line) : Prop where
  record : k.record = l.record
  state : k.state = l.state
  rxState : k.rx.state = l.rx.state
  held : k.rx.held = l.rx.held
  lost : k.rx.lost = l.rx.lost
  stray : k.rx.stray = l.rx.stray
  stopFlag : k.poll.stopFlag = l.poll.stopFlag
  tx : NoNewListed l.tx.list k.tx.list
  filler : NoNewListed l.filler.list k.filler.list
  poll : NoNewListed l.poll.list k.poll.list

theorem Line.Advanced.refl (l : Line) : l.Advanced l := ⟨rfl, rfl, rfl, rfl, rfl, rfl, rfl, .refl _, .refl _, .refl _⟩

theorem Line.Advanced.trans {l k m : Line} (h : l.Advanced k) (j : k.Advanced m) : l.Advanced m where
  record := j.record.trans h.record
  state := j.state.trans h.state
  rxState := j.rxState.trans h.rxState
  held := j.held.trans h.held
  lost := j.lost.trans h.lost
  stray := j.stray.trans h.stray
  stopFlag := j.stopFlag.trans h.stopFlag
  tx := h.tx.trans j.tx
  filler := h.filler.trans j.filler
  poll := h.poll.trans j.poll

/-- The later of two operations first, so that the line between them is read off the goal. -/
theorem Line.Advanced.after {l k m : Line} (j : k.Advanced m) (h : l.Advanced k) : l.Advanced m := h.trans j

theorem Line.finishCommand_advanced (l : Line) (st : Status) (count : Nat) (detail : Word) :
    l.Advanced (l.finishCommand st count detail) := { Line.Advanced.refl l with }

theorem Line.recordEntered_advanced (l : Line) (i : Slot) : l.Advanced (l.recordEntered i) := by
  unfold Line.recordEntered
  split
  · split
    · exact l.finishCommand_advanced _ _ _
    · exact { Line.Advanced.refl l with }
  · exact .refl l

theorem Line.requestBufferWrite_advanced (l : Line) : l.Advanced l.requestBufferWrite := by
  rw [l.requestBufferWrite_spec]
  split
  · exact { Line.Advanced.refl l with }
  · exact .refl l

theorem Line.composeBuffer_advanced (l : Line) : l.Advanced l.composeBuffer := by
  unfold Line.composeBuffer
  dsimp only
  split
  · exact { Line.Advanced.refl l with filler := .finishHead _ _ }
  · exact .refl l

theorem Line.closeBuffer_advanced (l : Line) (reason : CloseReason) : l.Advanced (l.closeBuffer reason) := by
  unfold Line.closeBuffer
  dsimp only
  refine (Line.composeBuffer_advanced _).after ((Line.requestBufferWrite_advanced _).after ?_)
  exact { Line.Advanced.refl l with }

theorem Line.takeUpFlush_advanced (l : Line) : l.Advanced l.takeUpFlush := by
  unfold Line.takeUpFlush
  split
  · split
    · refine (Line.closeBuffer_advanced _ _).after ?_
      exact { Line.Advanced.refl l with }
    · exact { Line.Advanced.refl l with }
  · exact l.finishCommand_advanced _ _ _
  · exact { Line.Advanced.refl l with }

theorem Line.flushedEntered_advanced (l : Line) (i : Slot) (r : Result) : l.Advanced (l.flushedEntered i r) := by
  unfold Line.flushedEntered
  split
  · split
    · exact { Line.Advanced.refl l with }
    · exact .refl l
  · exact .refl l

theorem Line.nextBuffer_advanced (l : Line) : l.Advanced l.nextBuffer := by
  have htail := NoNewListed.tail l.filler.list
  unfold Line.nextBuffer
  split
  · split
    · exact { Line.Advanced.refl l with filler := fun _ hm _ => absurd hm List.not_mem_nil }
    · exact { Line.Advanced.refl l with filler := fun _ hm _ => absurd hm List.not_mem_nil }
  · next m ms hl =>
    rw [hl] at htail
    split
    · exact { Line.Advanced.refl l with filler := htail.trans (.activateHead _) }
    · exact { Line.Advanced.refl l with filler := htail }

theorem Line.bufferEntered_advanced (l : Line) (i : Slot) (r : Result) : l.Advanced (l.bufferEntered i r) := by
  have entered := (l.nextBuffer_advanced.trans (Line.flushedEntered_advanced _ i r)).trans
    (Line.recordEntered_advanced _ i)
  unfold Line.bufferEntered
  dsimp only
  split
  · exact entered.trans (Line.takeUpFlush_advanced _)
  · exact entered

theorem Line.movedOn_advanced (l : Line) (i : Slot) (r : Result) (p : Producer) : l.Advanced (l.movedOn i r p) := by
  cases p with
  | dispatcher | fence | event => exact .refl l
  | control n => exact { Line.Advanced.refl l with }
  | transmitter n =>
    refine (Line.recordEntered_advanced _ i).after ?_
    exact { Line.Advanced.refl l with tx := .tail _ }
  | data n =>
    simp only [Line.movedOn]
    split
    · refine (Line.recordEntered_advanced _ i).after ?_
      exact { Line.Advanced.refl l with poll := .tail _ }
    · exact l.bufferEntered_advanced i r

/-- An admission of a composed completion moves its producer's line on. -/
theorem State.enterBacklog_line_same {s : State} {p : Producer} {i : Slot} {r : Result} {n : LineNo}
    (hoff : s.onOffer p = some (i, r)) (hp : p.lineOf = some n) :
    (s.enterBacklog p).line n = (s.line n).movedOn i r p := by
  obtain ⟨-, -, hl, -⟩ := s.enterRecord_frame i r
  rw [State.enterBacklog_of_offer hoff, State.producerMovesOn_line _ _ _ hp, State.line_setLine_same]
  simp only [State.line, hl]

theorem State.enterBacklog_line_other {s : State} {p : Producer} {n : LineNo} (hoff : (s.onOffer p).isSome = true)
    (hp : p.lineOf ≠ some n) : (s.enterBacklog p).line n = s.line n := by
  obtain ⟨⟨i, r⟩, hir⟩ := Option.isSome_iff_exists.mp hoff
  obtain ⟨-, -, hl, -⟩ := s.enterRecord_frame i r
  have hline : (s.enterRecord i r).line n = s.line n := by simp only [State.line, hl]
  rw [State.enterBacklog_of_offer hir, ← hline]
  cases hlineOf : p.lineOf with
  | none => cases p <;> simp [Producer.lineOf] at hlineOf <;> rfl
  | some k =>
    rw [State.producerMovesOn_line _ _ _ hlineOf]
    exact State.line_setLine_other _ _ fun hk => hp (by rw [hlineOf, hk])

/-- An admission of a composed completion advances its producer's line, and leaves the others. -/
theorem State.enterBacklog_advanced {s : State} {p : Producer} (hp : (s.onOffer p).isSome = true) (n : LineNo) :
    (s.line n).Advanced ((s.enterBacklog p).line n) := by
  by_cases hline : p.lineOf = some n
  · obtain ⟨⟨i, r⟩, hoff⟩ := Option.isSome_iff_exists.mp hp
    rw [State.enterBacklog_line_same hoff hline]
    exact Line.movedOn_advanced _ i r p
  · rw [State.enterBacklog_line_other hp hline]
    exact .refl _

/-- The offers of a moment advance every line. -/
theorem State.settle_advanced (s : State) (ps : List Producer) (k : Nat) (n : LineNo) :
    (s.line n).Advanced ((State.settle ps k s).line n) :=
  State.settle_induction ps (P := fun t => (s.line n).Advanced (t.line n)) (fun _ _ h => h)
    (fun _ _ h _ hoff _ _ => h.trans (State.enterBacklog_advanced hoff n)) (fun _ _ h _ _ _ => h) k (.refl _)

/-! ### STOP (11 R180) -/

theorem endedBehind_not_listed {β : Type} (st : Status) (ms : List (Member β)) : ∀ m ∈ endedBehind st ms, m.phase ≠ .listed := by
  intro m hm
  obtain ⟨x, -, rfl⟩ := List.mem_map.mp hm
  split
  · simp
  · next hx => exact hx

/-- Nothing new is LISTED where nothing was. -/
theorem NoNewListed.none_listed {β : Type} {xs ys : List (Member β)} (h : NoNewListed xs ys)
    (hx : ∀ m ∈ xs, m.phase ≠ .listed) : ∀ m ∈ ys, m.phase ≠ .listed :=
  fun m hm hp => hx m (h m hm hp) hp

theorem Line.stop_of_disabled {l : Line} (h : l.state ≠ .enabled) : l.stop = l := if_pos h

theorem Line.stop_of_poll {l : Line} (h : l.state = .enabled) (hmode : l.isPoll = true) :
    l.stop = { l with poll := { l.poll with list := endedBehind .stopped l.poll.list,
                                            stopFlag := l.poll.stopFlag || l.poll.carrying } } := by
  simp [Line.stop, h, hmode, finishListed_eq]

theorem Line.stop_of_stream {l : Line} (h : l.state = .enabled) (hmode : l.isPoll = false) :
    l.stop = Line.endBuffers { l with tx := { l.tx with list := endedBehind .stopped l.tx.list } } .stopped := by
  simp [Line.stop, h, hmode, finishListed_eq]

/-- The end of the head buffer, behind which nothing is LISTED any more. -/
theorem Line.endBuffers_advanced (l : Line) (st : Status) :
    Line.Advanced { l with filler := { l.filler with list := endedBehind st l.filler.list } } (l.endBuffers st) := by
  unfold Line.endBuffers
  dsimp only
  split
  · refine (Line.composeBuffer_advanced _).after ((Line.requestBufferWrite_advanced _).after ?_)
    exact { Line.Advanced.refl _ with }
  · exact .refl _

theorem State.drained_line (s : State) (n : LineNo) : s.drained.line n = s.line n := by
  rw [State.drained_eq]
  rfl

/-- The state in which the completions that a STOP composes are offered. -/
def State.stopping (s : State) : State :=
  { s with ctl := { s.ctl with state := .draining }, lines := s.lines.map Line.stop }

theorem exec_stop {s : State} (hopen : s.ctl.windowOpen = true) (hrun : s.ctl.state = .running) (u : BitVec 24) :
    exec (.stop u) s = .next (State.settle allLineProducers settleBound s.stopping).drained := by
  dsimp only [exec, execStop]
  rw [State.write_open _ _ hopen]
  simp only [hrun]
  rfl

theorem State.stopping_line (s : State) (n : LineNo) : s.stopping.line n = (s.line n).stop := by
  simp [State.stopping, State.line]

theorem State.tableEmpty_iff (s : State) : s.tableEmpty = true ↔ ∀ i, s.entry i = none := by
  refine ⟨State.entry_none_of_tableEmpty, fun h => ?_⟩
  unfold State.tableEmpty
  rw [Vector.all_eq_true]
  intro i hi
  have := h ⟨i, hi⟩
  simpa [State.entry] using this

/-- What a STOP in RUNNING leaves of a line. -/
theorem Line.stop_leaves {l t : Line} (h : l.stop.Advanced t) :
    t.record = l.record ∧ t.state = l.state ∧ t.rx.state = l.rx.state ∧ t.rx.held = l.rx.held ∧
    t.rx.lost = l.rx.lost ∧ t.rx.stray = l.rx.stray ∧
    (l.state = .enabled →
      (l.isPoll = true → (∀ m ∈ t.poll.list, m.phase ≠ .listed) ∧ t.poll.stopFlag = (l.poll.stopFlag || l.poll.carrying)) ∧
      (l.isPoll = false → (∀ m ∈ t.tx.list, m.phase ≠ .listed) ∧ ∀ m ∈ t.filler.list, m.phase ≠ .listed)) := by
  by_cases hs : l.state = .enabled
  · cases hmode : l.isPoll with
    | true =>
      rw [Line.stop_of_poll hs hmode] at h
      exact ⟨h.record, h.state, h.rxState, h.held, h.lost, h.stray,
        fun _ => ⟨fun _ => ⟨h.poll.none_listed (endedBehind_not_listed _ _), h.stopFlag⟩, nofun⟩⟩
    | false =>
      rw [Line.stop_of_stream hs hmode] at h
      have h' := (Line.endBuffers_advanced _ _).trans h
      exact ⟨h'.record, h'.state, h'.rxState, h'.held, h'.lost, h'.stray,
        fun _ => ⟨nofun, fun _ => ⟨h'.tx.none_listed (endedBehind_not_listed _ _),
          h'.filler.none_listed (endedBehind_not_listed _ _)⟩⟩⟩
  · rw [Line.stop_of_disabled hs] at h
    exact ⟨h.record, h.state, h.rxState, h.held, h.lost, h.stray, fun hs' => absurd hs' hs⟩

/-- Settles O13: by what a STOP makes of each line, and what the offers that follow leave of it. -/
theorem stopAndDrain : Obligations.StopAndDrain := by
  refine ⟨fun u s hopen hrun => ⟨_, exec_stop hopen hrun u, ?_⟩, fun u s hopen hrun =>
    ⟨s.lines.map Line.stop, exec_stop hopen hrun u, fun n => ?_⟩, fun s => ?_⟩
  · set t := State.settle allLineProducers settleBound s.stopping with ht
    have hctl : t.ctl = { s.ctl with state := .draining } := State.settle_ctl _ _ _
    refine ⟨?_, ?_, ?_, ?_, ?_, ?_, ?_, ?_, fun n => Line.stop_leaves ?_⟩
    · have hdraining : t.ctl.state = .draining := by rw [hctl]
      have hsame : t.drained.tableEmpty = true ∧ t.drained.backlog.entries = [] ↔
          t.tableEmpty = true ∧ t.backlog.entries = [] := by
        rw [State.drained_eq]
        rfl
      by_cases hempty : t.tableEmpty = true ∧ t.backlog.entries = []
      · have hstopped : t.drained = { t with ctl := { t.ctl with state := .stopped } } := if_pos ⟨hdraining, hempty⟩
        rw [if_pos (hsame.mpr hempty), hstopped, hctl]
      · have hdrains : t.drained = t := if_neg fun h => hempty h.2
        rw [if_neg (hsame.not.mpr hempty), hdrains, hctl]
    · rw [State.drained_eq]; exact State.settle_block _ _ _
    · rw [State.drained_eq]; exact State.settle_fetcher _ _ _
    · rw [State.drained_eq]; exact State.settle_writer _ _ _
    · rw [State.drained_eq]; exact State.settle_notice _ _ _
    · rw [State.drained_eq]; exact State.settle_reports _ _ _
    · rw [State.drained_eq]; exact State.settle_port _ _ _
    · rw [State.drained_eq]; exact State.settle_pending _ _ _
    · rw [State.drained_line, ← State.stopping_line]
      exact State.settle_advanced _ _ _ n
  · intro l k
    have hk : k = l.stop := s.stopping_line n
    refine ⟨fun hs => ?_, fun hs hmode => ?_, fun hs hmode => ?_⟩
    · rw [hk, Line.stop_of_disabled hs]
    · rw [hk, Line.stop_of_poll hs (beq_iff_eq.mpr hmode)]
    · have hmode' : l.isPoll = false := by simp [Line.isPoll, hmode]
      have hspec := Line.endBuffers_spec { l with tx := { l.tx with list := endedBehind .stopped l.tx.list } } .stopped
      rw [← Line.stop_of_stream hs hmode', ← hk] at hspec
      exact ⟨hspec.2, hspec.1⟩
  · intro drained
    have hdrained : (s.ctl.state = .draining ∧ s.tableEmpty = true ∧ s.backlog.entries = []) ↔ drained := by
      rw [s.tableEmpty_iff]
    refine ⟨fun h => ?_, fun h => ?_⟩
    · exact congrArg _ (if_pos (hdrained.mpr h))
    · exact congrArg _ (if_neg (hdrained.not.mpr h))

end Sys2Proof.Machine

/-! PROOFS of O40 to O43: line commands that end at the head at once, CONFIGURE_LINE and ENABLE_LINE, DISABLE_LINE, QUERY_LINE. -/

namespace Sys2Proof.Machine

/-! ### A command at the head of its control list -/

theorem State.CommandAtHead.headCommand {s : State} {n : LineNo} {m : Member LineCommand} {ms : List (Member LineCommand)}
    (h : s.CommandAtHead n m ms .untaken) : (s.line n).headCommand = some m.body := by
  simp [Line.headCommand, h.head, h.active, h.progress]

section CommandEnds

variable {s : State} {n : LineNo} {m : Member LineCommand} {ms : List (Member LineCommand)} {p : CommandProgress} {i : Instr}
  {f : Line → Option Line}

theorem exec_onLine_some {k : Line} (hexec : exec i s = onLine n f s) (hf : f (s.line n) = some k) :
    exec i s = .next (s.updateLine n k) := by
  rw [hexec, onLine, hf]

theorem exec_onLine_none (hexec : exec i s = onLine n f s) (hf : f (s.line n) = none) : exec i s = .next s := by
  rw [hexec, onLine, hf]

/-- A step of line `n` that ends the command at its head and leaves the line as `k` otherwise. -/
theorem State.CommandAtHead.ends (h : s.CommandAtHead n m ms p) (hexec : exec i s = onLine n f s) {k : Line} {st : Status}
    {count : Nat} {detail : Word} (hf : f (s.line n) = some (k.finishCommand st count detail))
    (hc : k.control = (s.line n).control) (hd : (s.setLine n k).onOffer (.data n) = s.onOffer (.data n))
    (ht : headResult k.tx.list = headResult (s.line n).tx.list) :
    ∃ t, exec i s = .next t ∧ s.CommandEnds t n m ms k { status := st, count := BitVec.ofNat 16 count, detail } :=
  ⟨_, exec_onLine_some hexec hf, s.command_ends n m ms p k st count detail h hc hd ht⟩

/-- A step of line `n` that does nothing but end the command at its head. -/
theorem State.CommandAtHead.ends_only (h : s.CommandAtHead n m ms p) (hexec : exec i s = onLine n f s) {st : Status}
    {count : Nat} {detail : Word} (hf : f (s.line n) = some ((s.line n).finishCommand st count detail)) :
    ∃ t, exec i s = .next t ∧ s.CommandEnds t n m ms (s.line n) { status := st, count := BitVec.ofNat 16 count, detail } :=
  h.ends hexec hf rfl (State.onOffer_setLine s n (fun _ => rfl) _) rfl

end CommandEnds

/-- Settles O40: by the command and the line's state. -/
theorem commandsEndAtHead : Obligations.CommandsEndAtHead := by
  intro s n m ms h l ends
  have hcommand : l.headCommand = some m.body := h.headCommand
  have poll (hmode : l.record.mode = .poll) : l.isPoll = true := beq_iff_eq.mpr hmode
  refine ⟨fun hs => ⟨fun r hb => ?_, fun hb => ?_, fun hmode hb => ?_, fun hmode hb => ?_⟩,
    fun hs => ⟨fun hb hconf => ?_, fun hb => ?_, fun c hb => ?_, fun hb => ?_⟩⟩
  · exact h.ends_only (f := Line.configure) rfl (count := 0)
      (show l.configure = some l.badState by simp [Line.configure, hcommand, hb, hs])
  · exact h.ends_only (f := Line.enable) rfl (count := 0)
      (show l.enable = some l.badState by simp [Line.enable, hcommand, hb, hs])
  · refine h.ends_only (f := Line.abort) rfl (count := 0) (show l.abort = some l.badState from ?_)
    rcases hb with hb | hb <;> simp [Line.abort, hcommand, hb, hs, poll hmode]
  · exact h.ends_only (f := Line.flush) rfl (count := 0)
      (show l.flush = some l.badState by simp [Line.flush, hcommand, hb, hs, poll hmode])
  · exact h.ends_only (f := Line.enable) rfl (count := 0)
      (show l.enable = some l.badState by simp [Line.enable, hcommand, hb, hconf])
  · exact h.ends_only (f := Line.disable) rfl (count := 0)
      (show l.disable = some (l.finishCommand .ok 0 0) by simp [Line.disable, hcommand, hb, hs])
  · exact h.ends_only (f := Line.abort) rfl (count := 0)
      (show l.abort = some (l.finishCommand .ok 0 0) by simp [Line.abort, hcommand, hb, hs])
  · exact h.ends_only (f := Line.flush) rfl (count := 0)
      (show l.flush = some (l.finishCommand .ok 0 3) by simp [Line.flush, hcommand, hb, hs]; rfl)

/-- A line with empty data lists has no data record's completion on offer. -/
theorem State.onOffer_data_none (s : State) (n : LineNo) {k : Line} (hf : k.filler.list = []) (hp : k.poll.list = []) :
    (s.setLine n k).onOffer (.data n) = none := by
  simp [State.onOffer, hf, hp, headResult]

/-- Settles O41: both end OK on a DISABLED line, whose data lists are empty. -/
theorem configureAndEnable : Obligations.ConfigureAndEnable := by
  intro s n m ms h l ok hs ht hf hp
  have hcommand : l.headCommand = some m.body := h.headCommand
  have hdata : s.onOffer (.data n) = none := by
    have hself := State.onOffer_data_none s n (k := l) hf hp
    rwa [State.onOffer_setLine s n (fun _ => rfl)] at hself
  have hsame {k : Line} (hkf : k.filler.list = []) (hkp : k.poll.list = []) :
      (s.setLine n k).onOffer (.data n) = s.onOffer (.data n) := (State.onOffer_data_none s n hkf hkp).trans hdata.symm
  refine ⟨fun r hb => ?_, fun hb hconf => ?_⟩
  · exact h.ends (f := Line.configure) rfl (count := 0) (k := { l with record := r })
      (show l.configure = _ by simp [Line.configure, hcommand, hb, hs]) rfl
      (hsame hf hp) rfl
  · intro stream
    have hstream : (l.record.mode == .stream) = stream := by simp [stream, beq_eq_decide]
    have henabled : l.enabled = { l with
          state := .enabled
          rate := some (l.record.divisor.toNat + 1)
          rts := stream
          de := stream
          rx := { l.rx with state := .hunt, read := [], sample := 0, fifo := [], held := false, idleTimer := none,
                            armed := false }
          tx := { l.tx with state := .idle, txd := .mark }
          poll := { l.poll with attempt := .none, window := false, quiet := !stream } } := by
      simp [Line.enabled, Line.rxHunt, hstream, LineRecord.samplePeriods]
    refine h.ends (f := Line.enable) rfl (count := 0) (k := _) ?_ rfl
      (hsame hf hp) rfl
    rw [← henabled]
    show l.enable = _
    simp [Line.enable, hcommand, hb, hs, hconf]

/-- Settles O43: the snapshot is handed over at once; the end of its write ends the command. -/
theorem queryAndReport : Obligations.QueryAndReport := by
  intro s n m ms
  refine ⟨fun a hb h => ?_, fun t ht hkind h => ?_⟩
  · have hcommand := h.headCommand
    dsimp only [exec, execQueryLine]
    simp only [hcommand, hb]
  · intro told
    have hexec (e : WriteEnd) : exec (.reportWriteEnd e) s = .next (told.updateLine n ((s.line n).reportWritten e)) := by
      dsimp only [exec, execReportWriteEnd]
      rw [State.endTransfer_acts s _ _ t ht.1 (by simp [hkind, TransferKind.reportOf]) ht.2]
      simp only [hkind, TransferKind.reportOf]
      rfl
    have htold : told.CommandAtHead n m ms .query :=
      ⟨h.head, h.active, h.progress, h.behind, h.inUse, h.notWaiting, h.quiet⟩
    have hdone (st : Status) (count : Nat) := told.command_ends n m ms .query (told.line n) st count 0 htold rfl
      (State.onOffer_setLine told n (fun _ => rfl) _) rfl
    refine ⟨⟨_, hexec .ok, ?_⟩, ⟨_, hexec .busError, ?_⟩⟩
    · simp only [Line.reportWritten, h.progress]
      exact hdone .ok 32
    · simp only [Line.reportWritten, h.progress]
      exact hdone .busError 0

end Sys2Proof.Machine

/-! PROOFS of O42 (DISABLE_LINE) and O45 (ABORT_LINE). -/

namespace Sys2Proof.Machine

/-! ### What the ends of a line's records leave as it was -/

/-- Line `k` after an ABORT_LINE or DISABLE_LINE has reached the data units of line `l`: the line's own items, its control
list and the counts of its receiver stay, and nothing new is LISTED for the poll engine. -/
structure Line.CutShort (l k : Line) : Prop where
  record : k.record = l.record
  state : k.state = l.state
  control : k.control = l.control
  progress : k.progress = l.progress
  rate : k.rate = l.rate
  rts : k.rts = l.rts
  idleTimer : k.rx.idleTimer = l.rx.idleTimer
  held : k.rx.held = l.rx.held
  lost : k.rx.lost = l.rx.lost
  stray : k.rx.stray = l.rx.stray
  off : l.state ≠ .enabled → k.rx.state = l.rx.state ∧ k.rx.read = l.rx.read
  poll : NoNewListed l.poll.list k.poll.list

theorem Line.CutShort.refl (l : Line) : l.CutShort l :=
  ⟨rfl, rfl, rfl, rfl, rfl, rfl, rfl, rfl, rfl, rfl, fun _ => ⟨rfl, rfl⟩, .refl _⟩

/-- The later of two operations first, so that the line between them is read off the goal. -/
theorem Line.CutShort.after {l k m : Line} (j : k.CutShort m) (h : l.CutShort k) : l.CutShort m where
  record := j.record.trans h.record
  state := j.state.trans h.state
  control := j.control.trans h.control
  progress := j.progress.trans h.progress
  rate := j.rate.trans h.rate
  rts := j.rts.trans h.rts
  idleTimer := j.idleTimer.trans h.idleTimer
  held := j.held.trans h.held
  lost := j.lost.trans h.lost
  stray := j.stray.trans h.stray
  off hs := ⟨(j.off (h.state ▸ hs)).1.trans (h.off hs).1, (j.off (h.state ▸ hs)).2.trans (h.off hs).2⟩
  poll := h.poll.trans j.poll

theorem Line.composePoll_cutShort (l : Line) : l.CutShort l.composePoll := by
  unfold Line.composePoll
  split
  · split
    · exact { Line.CutShort.refl l with poll := .finishHead _ _ }
    · exact .refl l
  · exact .refl l

theorem Line.requestReplyWrite_cutShort (l : Line) : l.CutShort l.requestReplyWrite := by
  rw [l.requestReplyWrite_spec]
  split
  · exact { Line.CutShort.refl l with }
  · exact .refl l

theorem Line.releaseDriver_cutShort (l : Line) : l.CutShort l.releaseDriver := by
  unfold Line.releaseDriver Line.rxHunt
  dsimp only
  split
  · next hs => exact { Line.CutShort.refl l with off := fun h => absurd hs h }
  · exact { Line.CutShort.refl l with }

theorem Line.composeSend_cutShort (l : Line) : l.CutShort l.composeSend := by
  unfold Line.composeSend
  split
  · split
    · exact { Line.CutShort.refl l with }
    · exact .refl l
  · exact .refl l

theorem Line.pollWorkEnded_cutShort (l : Line) (st : Status) : l.CutShort (l.pollWorkEnded st) := by
  unfold Line.pollWorkEnded
  refine (Line.composePoll_cutShort _).after (Line.CutShort.after (k := l.releaseDriver) ?_ l.releaseDriver_cutShort)
  exact { Line.CutShort.refl l.releaseDriver with }

theorem Line.stopCharacters_cutShort (l : Line) (st : Status) (ts : TxState) : l.CutShort (l.stopCharacters st ts) := by
  unfold Line.stopCharacters
  dsimp only
  split
  · refine (Line.pollWorkEnded_cutShort _ st).after ?_
    exact { Line.CutShort.refl l with }
  · refine (Line.composeSend_cutShort _).after ?_
    exact { Line.CutShort.refl l with }

theorem Line.abortCharacters_cutShort (l : Line) (st : Status) : l.CutShort (l.abortCharacters st) := by
  unfold Line.abortCharacters
  split
  · exact { Line.CutShort.refl l with }
  · exact l.stopCharacters_cutShort _ _

theorem Line.cutAttempt_cutShort (l : Line) (st : Status) : l.CutShort (l.cutAttempt st) := by
  unfold Line.cutAttempt
  dsimp only
  split
  · exact .refl l
  · refine (Line.composePoll_cutShort _).after ?_
    exact { Line.CutShort.refl l with }
  · refine (Line.abortCharacters_cutShort _ _).after ?_
    exact { Line.CutShort.refl l with }
  all_goals
    refine (Line.composePoll_cutShort _).after ?_
  iterate 3
    · refine (Line.requestReplyWrite_cutShort _).after ?_
      exact { Line.CutShort.refl l with }
  exact { Line.CutShort.refl l with }

/-- The end of the poll engine's current record, behind which nothing is LISTED any more. -/
theorem Line.endPolls_cutShort (l : Line) (st : Status) :
    Line.CutShort { l with poll := { l.poll with list := endedBehind st l.poll.list } } (l.endPolls st) := by
  unfold Line.endPolls
  dsimp only
  split
  · exact Line.cutAttempt_cutShort _ _
  · exact .refl _

theorem completedHead_not_listed {β : Type} (r : Result) {ms : List (Member β)} (h : ∀ m ∈ ms, m.phase ≠ .listed) :
    ∀ m ∈ completedHead r ms, m.phase ≠ .listed := by
  rw [← finishHead_eq]
  exact (NoNewListed.finishHead r ms).none_listed h

/-- Nothing stays LISTED on the TX list of a transmitter that an abort or disable has reached. -/
theorem Transmitter.EndedAs.not_listed {t x : Transmitter} {st : Status} (h : t.EndedAs x st) :
    ∀ m ∈ x.list, m.phase ≠ .listed := by
  obtain ⟨hnone, hsend, hread, hdone⟩ := h
  have behind := endedBehind_not_listed st t.list
  by_cases hc : t.HasCurrent
  · by_cases hs : t.state = .send
    · rw [hsend hc hs]; exact behind
    · by_cases ho : t.outstanding = none
      · rw [hdone hc hs ho]; exact completedHead_not_listed _ behind
      · rw [hread hc hs ho]; exact behind
  · rw [hnone hc]; exact behind

theorem Line.endBuffers_not_listed (l : Line) (st : Status) : ∀ m ∈ (l.endBuffers st).filler.list, m.phase ≠ .listed :=
  (l.endBuffers_advanced st).filler.none_listed (endedBehind_not_listed _ _)

/-! ### The offers of a moment on one line -/

/-- What a step of line `n` leaves of the part outside the line and the backlog. -/
theorem State.updateLine_sameOutside (s : State) (n : LineNo) (k : Line) : s.SameOutside (s.updateLine n k) :=
  ⟨State.updateLine_ctl _ _ _, State.updateLine_block _ _ _, State.updateLine_fetcher _ _ _, State.updateLine_writer _ _ _,
    State.updateLine_notice _ _ _, State.updateLine_reports _ _ _, State.updateLine_port _ _ _, State.updateLine_pending _ _ _⟩

theorem State.updateLine_otherLines (s : State) (n : LineNo) (k : Line) : s.SameOtherLines (s.updateLine n k) n := by
  intro j hj
  refine State.settle_induction (lineProducers n) (P := fun t => t.line j = s.line j) (fun _ _ h => h) ?_
    (fun _ _ h _ _ _ => h) settleBound (State.line_setLine_other s k hj)
  intro t p h hp hoff _ _
  rw [State.enterBacklog_line_other hoff, h]
  rw [mem_lineProducers.mp hp]
  exact fun hn => hj (Option.some.inj hn).symm

/-- The items of a line that no admission of its data units' completions touches while no command waits for one. -/
structure Line.ControlStill (l k : Line) : Prop where
  control : k.control = l.control
  progress : k.progress = l.progress
  rate : k.rate = l.rate
  rx : k.rx = l.rx
  rts : k.rts = l.rts
  de : k.de = l.de

theorem Line.ControlStill.refl (l : Line) : l.ControlStill l := ⟨rfl, rfl, rfl, rfl, rfl, rfl⟩

theorem Line.ControlStill.trans {l k m : Line} (h : l.ControlStill k) (j : k.ControlStill m) : l.ControlStill m :=
  ⟨j.control.trans h.control, j.progress.trans h.progress, j.rate.trans h.rate, j.rx.trans h.rx, j.rts.trans h.rts,
    j.de.trans h.de⟩

theorem Line.nextBuffer_controlStill (l : Line) : l.ControlStill l.nextBuffer := by
  unfold Line.nextBuffer
  split <;> split <;> exact ⟨rfl, rfl, rfl, rfl, rfl, rfl⟩

/-- While a DISABLE_LINE is in progress the data units' completions leave the line's own items alone. -/
theorem Line.movedOn_controlStill (l : Line) {count : Nat} (hp : l.progress = .disable count) (i : Slot) (r : Result)
    {p : Producer} (hc : ∀ n, p ≠ .control n) : l.ControlStill (l.movedOn i r p) := by
  have noAbort (k : Line) (hk : k.progress = .disable count) : k.recordEntered i = k :=
    k.recordEntered_of_noAbort i (by simp [hk])
  cases p with
  | dispatcher | fence | event => exact .refl l
  | control n => exact absurd rfl (hc n)
  | transmitter n =>
    simp only [Line.movedOn, Line.sendEntered]
    rw [noAbort { l with tx := { l.tx with list := l.tx.list.tail } } hp]
    exact ⟨rfl, rfl, rfl, rfl, rfl, rfl⟩
  | data n =>
    simp only [Line.movedOn]
    split
    · rw [Line.pollEntered, noAbort { l with poll := { l.poll with list := l.poll.list.tail, attempt := .none } } hp]
      exact ⟨rfl, rfl, rfl, rfl, rfl, rfl⟩
    · rw [l.bufferEntered_of_noFlush i r (by simp [hp]) (by simp [hp]), noAbort l.nextBuffer (by simp [hp])]
      exact l.nextBuffer_controlStill

/-- While a DISABLE_LINE is in progress the offers of the moment leave the line's own items alone. -/
theorem State.updateLine_controlStill (s : State) (n : LineNo) {k : Line} {count : Nat} (hp : k.progress = .disable count)
    (hc : headResult k.control = none) : k.ControlStill ((s.updateLine n k).line n) := by
  refine State.settle_induction (lineProducers n) (P := fun t => k.ControlStill (t.line n)) (fun _ _ h => h) ?_
    (fun _ _ h _ _ _ => h) settleBound ?_
  · intro t p h hmem hoff _ _
    refine h.trans ?_
    obtain ⟨⟨i, r⟩, hir⟩ := Option.isSome_iff_exists.mp hoff
    rw [State.enterBacklog_line_same hir (mem_lineProducers.mp hmem)]
    refine Line.movedOn_controlStill _ (h.progress.trans hp) i r ?_
    rintro m rfl
    cases mem_lineProducers.mp hmem
    rw [State.onOffer, h.control, hc] at hoff
    cases hoff
  · rw [State.line_setLine_same]
    exact .refl k

theorem State.updateLine_advanced (s : State) (n : LineNo) (k : Line) : k.Advanced ((s.updateLine n k).line n) := by
  have h := State.settle_advanced (s.setLine n k) (lineProducers n) settleBound n
  rwa [State.line_setLine_same] at h

/-! ### DISABLE_LINE (02 R35, R36) -/

/-- The line as a DISABLE_LINE leaves it before its data units end their records. -/
def Line.goesDown (l : Line) : Line :=
  { l with
    state := .disabling
    rts := false
    progress := .disable l.reachedByDisable.length
    rx := { l.rx with state := .off, read := [], sample := 0, idleTimer := none }
    poll := { l.poll with quiet := false } }

theorem Line.beginDisabling_poll {l : Line} (hmode : l.isPoll = true) : l.beginDisabling = l.goesDown.endPolls .lineDisabled := by
  simp [Line.beginDisabling, hmode, Line.goesDown, Line.rxOff]

theorem Line.beginDisabling_stream {l : Line} (hmode : l.isPoll = false) :
    l.beginDisabling = (l.goesDown.endSends .lineDisabled).endBuffers .lineDisabled := by
  simp [Line.beginDisabling, hmode, Line.goesDown, Line.rxOff]

/-- The data units of a STREAM line that an abort or disable has reached, and the rest of the line. -/
theorem Line.endSends_endBuffers (l : Line) (st : Status) (hmode : l.isPoll = false) :
    let k := (l.endSends st).endBuffers st
    k = { l with tx := k.tx, filler := k.filler } ∧ l.tx.EndedAs k.tx st ∧ l.filler.EndedAs k.filler st ∧
      ∀ m ∈ k.filler.list, m.phase ≠ .listed := by
  intro k
  obtain ⟨hsends, hline⟩ := l.endSends_spec st hmode
  obtain ⟨hbuffers, hrest⟩ := (l.endSends st).endBuffers_spec st
  have htx : k.tx = (l.endSends st).tx := by
    show ((l.endSends st).endBuffers st).tx = _
    rw [hrest]
  have hfiller : (l.endSends st).filler = l.filler := by rw [hline]
  refine ⟨?_, htx ▸ hsends, hfiller ▸ hbuffers, Line.endBuffers_not_listed _ st⟩
  rw [htx]
  exact hrest.trans (congrArg (fun x : Line => { x with filler := k.filler }) hline)

theorem State.CommandAtHead.headResult {s : State} {n : LineNo} {m : Member LineCommand} {ms : List (Member LineCommand)}
    {p : CommandProgress} (h : s.CommandAtHead n m ms p) : headResult (s.line n).control = none := by
  obtain ⟨slot, phase, body⟩ := m
  have hphase : phase = .active := h.active
  rw [h.head, hphase]
  rfl

theorem exec_disableLine {s : State} {n : LineNo} {m : Member LineCommand} {ms : List (Member LineCommand)}
    (h : s.CommandAtHead n m ms .untaken) (hb : m.body = .disable) (hs : (s.line n).state = .enabled) :
    exec (.disableLine n) s = .next (s.updateLine n (s.line n).beginDisabling) := by
  refine exec_onLine_some (f := Line.disable) rfl ?_
  simp [Line.disable, h.headCommand, hb, hs]

theorem Line.isPoll_of_stream {l : Line} (h : l.record.mode = .stream) : l.isPoll = false := by simp [Line.isPoll, h]

theorem Line.isPoll_of_poll {l : Line} (h : l.record.mode = .poll) : l.isPoll = true := beq_iff_eq.mpr h

/-- What the DISABLE_LINE's records leave of the line. -/
theorem Line.beginDisabling_leaves (l : Line) :
    let k := l.beginDisabling
    k.state = .disabling ∧ k.record = l.record ∧ k.control = l.control ∧
    k.progress = .disable l.reachedByDisable.length ∧ k.rate = l.rate ∧ k.rts = false ∧ k.rx.state = .off ∧
    k.rx.read = [] ∧ k.rx.idleTimer = none ∧ k.rx.held = l.rx.held ∧ k.rx.lost = l.rx.lost ∧ k.rx.stray = l.rx.stray ∧
    (l.record.mode = .stream → k.rx.fifo = l.rx.fifo ∧ k.de = l.de ∧
      (∀ x ∈ k.tx.list, x.phase ≠ .listed) ∧ ∀ x ∈ k.filler.list, x.phase ≠ .listed) ∧
    (l.record.mode = .poll → ∀ x ∈ k.poll.list, x.phase ≠ .listed) := by
  intro k
  cases hmode : l.record.mode with
  | poll =>
    have hk : k = l.goesDown.endPolls .lineDisabled := Line.beginDisabling_poll (Line.isPoll_of_poll hmode)
    have hcut := l.goesDown.endPolls_cutShort .lineDisabled
    rw [← hk] at hcut
    obtain ⟨hoff, hread⟩ := hcut.off (by simp [Line.goesDown])
    exact ⟨hcut.state, hcut.record, hcut.control, hcut.progress, hcut.rate, hcut.rts, hoff, hread, hcut.idleTimer,
      hcut.held, hcut.lost, hcut.stray, nofun, fun _ => hcut.poll.none_listed (endedBehind_not_listed _ _)⟩
  | stream =>
    have hk : k = _ := Line.beginDisabling_stream (Line.isPoll_of_stream hmode)
    obtain ⟨hline, htx, -, hlisted⟩ := l.goesDown.endSends_endBuffers .lineDisabled (Line.isPoll_of_stream hmode)
    rw [← hk] at hline htx hlisted
    have htx' := htx.not_listed
    rw [hline] at htx' hlisted ⊢
    exact ⟨rfl, rfl, rfl, rfl, rfl, rfl, rfl, rfl, rfl, rfl, rfl, rfl, fun _ => ⟨rfl, rfl, htx', hlisted⟩, nofun⟩

/-- Settles O42: by what the units make of their records, and what the offers that follow leave of the line. -/
theorem disableLineSteps : Obligations.DisableLineSteps := by
  refine ⟨fun s n m ms => ⟨fun h hb hs => ⟨_, exec_disableLine h hb hs, State.updateLine_sameOutside _ _ _,
    State.updateLine_otherLines _ _ _, ?_⟩, fun h hb hs => ?_, fun count h hs => ⟨fun ht hf hp => ?_, fun hlists => ?_⟩⟩,
    fun l => ⟨fun hmode => ?_, fun hmode => ?_⟩⟩
  · intro k
    obtain ⟨state, record, control, progress, rate, rts, off, read, idleTimer, held, lost, stray, stream, poll⟩ :=
      (s.line n).beginDisabling_leaves
    have still := s.updateLine_controlStill n progress (control ▸ h.headResult)
    have advanced := s.updateLine_advanced n (s.line n).beginDisabling
    refine ⟨advanced.state.trans state, advanced.record.trans record, still.control.trans control,
      still.progress.trans progress, still.rate.trans rate, still.rts.trans rts, advanced.rxState.trans off, ?_, ?_,
      advanced.held.trans held, advanced.lost.trans lost, advanced.stray.trans stray, fun hmode => ?_,
      fun hmode => advanced.poll.none_listed (poll hmode)⟩
    · rw [← read, ← still.rx]
    · rw [← idleTimer, ← still.rx]
    · obtain ⟨fifo, de, tx, filler⟩ := stream hmode
      exact ⟨by rw [← fifo, ← still.rx], still.de.trans de, advanced.tx.none_listed tx, advanced.filler.none_listed filler⟩
  · intro w
    refine ⟨(s.line n).beginDisabling, exec_disableLine h hb hs, fun hmode => ?_, fun hmode => ?_⟩
    · rw [Line.beginDisabling_poll (Line.isPoll_of_poll hmode)]
      exact Line.endPolls_spec _ .lineDisabled (.inr rfl) (Line.isPoll_of_poll hmode)
    · rw [Line.beginDisabling_stream (Line.isPoll_of_stream hmode)]
      obtain ⟨hline, htx, hfiller, -⟩ := (s.line n).goesDown.endSends_endBuffers .lineDisabled (Line.isPoll_of_stream hmode)
      exact ⟨hline, htx, hfiller⟩
  · refine h.ends (f := Line.disabledStep) rfl (count := count) (k := { s.line n with
            state := .disabled
            rate := none
            rts := false
            de := false
            rx := { (s.line n).rx with fifo := [], held := false, armed := false }
            tx := { (s.line n).tx with txd := .mark } }) ?_ rfl (State.onOffer_setLine s n (fun q => by cases q <;> rfl) _) rfl
    simp [Line.disabledStep, hs, h.progress, ht, hf, hp]
  · refine exec_onLine_none (f := Line.disabledStep) rfl ?_
    simp only [Line.disabledStep, hs, h.progress, List.isEmpty_iff]
    exact if_neg fun hall => by
      obtain ⟨ht, hf, hp⟩ := hall
      rcases hlists with hne | hne | hne
      · exact hne ht
      · exact hne hf
      · exact hne hp
  · simpa [Line.reachedByDisable, Line.isPoll_of_poll hmode] using l.reachedPolls_spec
  · exact ⟨l.reachedSends, l.reachedBuffers, l.reachedSends_spec, l.reachedBuffers_spec, by
      simp [Line.reachedByDisable, Line.isPoll_of_stream hmode]⟩

/-! ### ABORT_LINE (02 R39) -/

/-- ABORT_LINE of an allowed class at the head of an ENABLED line. -/
theorem Line.abort_enabled (l : Line) {c : AbortClass} (hcommand : l.headCommand = some (.abort c))
    (hs : l.state = .enabled) (hclass : ¬ (l.isPoll = true ∧ c ≠ .all)) :
    l.abort = some (if l.reachedByAbort c = [] then l.finishCommand .ok 0 0 else
      Line.abortUnits { l with progress := .abort (l.reachedByAbort c) (l.reachedByAbort c).length } c) := by
  unfold Line.abort
  rw [hcommand]
  dsimp only
  split
  · next hd => rw [hs] at hd; cases hd
  · simp only [if_neg hclass, List.isEmpty_iff]
    split <;> rfl
  · next hd => rw [hs] at hd; cases hd

/-- What the units of a STREAM line make of an ABORT_LINE. -/
theorem Line.abortUnits_stream (w : Line) (c : AbortClass) (hmode : w.isPoll = false) :
    let k := w.abortUnits c
    k = { w with tx := k.tx, filler := k.filler } ∧
      (c ≠ .rx → w.tx.EndedAs k.tx .aborted) ∧ (c = .rx → k.tx = w.tx) ∧
      (c ≠ .tx → w.filler.EndedAs k.filler .aborted ∧ ∀ m ∈ k.filler.list, m.phase ≠ .listed) ∧
      (c = .tx → k.filler = w.filler) := by
  obtain ⟨hsends, hafterSends⟩ := w.endSends_spec .aborted hmode
  obtain ⟨hbuffers, hafterBuffers⟩ := w.endBuffers_spec .aborted
  have hboth := w.endSends_endBuffers .aborted hmode
  cases c with
  | tx =>
    have hk : w.abortUnits .tx = w.endSends .aborted := by simp [Line.abortUnits, hmode]
    have hfiller : (w.endSends .aborted).filler = w.filler := by rw [hafterSends]
    simp only [hk]
    exact ⟨by rw [hfiller]; exact hafterSends, fun _ => hsends, nofun, fun hc => absurd rfl hc, fun _ => hfiller⟩
  | rx =>
    have hk : w.abortUnits .rx = w.endBuffers .aborted := by simp [Line.abortUnits, hmode]
    have htx : (w.endBuffers .aborted).tx = w.tx := by rw [hafterBuffers]
    simp only [hk]
    exact ⟨by rw [htx]; exact hafterBuffers, fun hc => absurd rfl hc, fun _ => htx,
      fun _ => ⟨hbuffers, w.endBuffers_not_listed _⟩, nofun⟩
  | all =>
    have hk : w.abortUnits .all = (w.endSends .aborted).endBuffers .aborted := by simp [Line.abortUnits, hmode]
    obtain ⟨hline, htx, hfiller, hlisted⟩ := hboth
    simp only [hk]
    exact ⟨hline, fun _ => htx, nofun, fun _ => ⟨hfiller, hlisted⟩, nofun⟩

theorem Line.abortUnits_poll (w : Line) (c : AbortClass) (hmode : w.isPoll = true) : w.abortUnits c = w.endPolls .aborted := by
  simp [Line.abortUnits, hmode]

theorem Line.recordEntered_waits (l : Line) (i : Slot) {waitFor : List Slot} {count : Nat}
    (h : l.progress = .abort waitFor count) (hleft : waitFor.erase i ≠ []) :
    l.recordEntered i = { l with progress := .abort (waitFor.erase i) count } := by
  simp [Line.recordEntered, h, hleft]

theorem Line.recordEntered_last (l : Line) (i : Slot) {waitFor : List Slot} {count : Nat}
    (h : l.progress = .abort waitFor count) (hlast : waitFor.erase i = []) :
    l.recordEntered i = l.finishCommand .ok count 0 := by
  simp [Line.recordEntered, h, hlast]

/-- A record's completion that entered is a matter of the line's control items alone. -/
theorem Line.recordEntered_eq (l : Line) (i : Slot) :
    ∃ control progress, l.recordEntered i = { l with control := control, progress := progress } := by
  unfold Line.recordEntered
  split
  · split
    · exact ⟨_, _, rfl⟩
    · exact ⟨_, _, rfl⟩
  · exact ⟨_, _, rfl⟩

theorem Line.closeBuffer_tx (l : Line) (reason : CloseReason) : (l.closeBuffer reason).tx = l.tx := by
  unfold Line.closeBuffer Line.composeBuffer Line.requestBufferWrite
  dsimp only
  split <;> split <;> rfl

theorem Line.takeUpFlush_tx (l : Line) : l.takeUpFlush.tx = l.tx := by
  unfold Line.takeUpFlush
  split
  · split
    · rw [Line.closeBuffer_tx]
    · rfl
  · rfl
  · rfl

/-- A buffer's completion that entered leaves the transmitter alone. -/
theorem Line.bufferEntered_tx (l : Line) (i : Slot) (r : Result) : (l.bufferEntered i r).tx = l.tx := by
  have hrecord : (Line.recordEntered (l.nextBuffer.flushedEntered i r) i).tx = (l.nextBuffer.flushedEntered i r).tx := by
    obtain ⟨control, progress, h⟩ := Line.recordEntered_eq (l.nextBuffer.flushedEntered i r) i
    rw [h]
  have hflushed : (l.nextBuffer.flushedEntered i r).tx = l.nextBuffer.tx := by
    unfold Line.flushedEntered
    split
    · split <;> rfl
    · rfl
  obtain ⟨-, hnext, -⟩ := l.nextBuffer_frame
  unfold Line.bufferEntered
  dsimp only
  split
  · rw [Line.takeUpFlush_tx, hrecord, hflushed, hnext]
  · rw [hrecord, hflushed, hnext]

/-- The part of a line that only producer `p`'s admissions touch stays through the offers of a moment in which `p` has
nothing new to offer. -/
theorem State.updateLine_unit_still {α : Type} (s : State) (n : LineNo) (k : Line) (f : Line → α) (p : Producer)
    (quiet : p ∈ s.backlog.waiting ∨ ∀ l : Line, f l = f k → l.onOffer p = none)
    (moves : ∀ (l : Line) (i : Slot) (r : Result) (q : Producer), q.lineOf = some n → q ≠ p → f (l.movedOn i r q) = f l) :
    f ((s.updateLine n k).line n) = f k := by
  have kept : (p ∈ (s.updateLine n k).backlog.waiting ∨ ∀ l : Line, f l = f k → l.onOffer p = none) ∧
      f ((s.updateLine n k).line n) = f k := by
    refine State.settle_induction (lineProducers n)
      (P := fun t => (p ∈ t.backlog.waiting ∨ ∀ l : Line, f l = f k → l.onOffer p = none) ∧ f (t.line n) = f k)
      (fun _ _ h => h) ?_ ?_ settleBound ⟨quiet, by rw [State.line_setLine_same]⟩
    · rintro t q ⟨hquiet, hf⟩ hmem hoff hnot -
      have hline := mem_lineProducers.mp hmem
      obtain ⟨⟨i, r⟩, hir⟩ := Option.isSome_iff_exists.mp hoff
      refine ⟨by rw [State.enterBacklog_waiting]; exact hquiet, ?_⟩
      rw [State.enterBacklog_line_same hir hline, moves _ i r q hline, hf]
      rintro rfl
      rcases hquiet with hw | hnone
      · exact hnot hw
      · rw [State.onOffer_line _ hline, hnone _ hf] at hoff
        cases hoff
    · rintro t q ⟨hquiet, hf⟩ - - -
      exact ⟨hquiet.imp_left fun hw => List.mem_append_left _ hw, hf⟩
  exact kept.2

/-- Without a slot free the offers of a moment leave the line as the step made it. -/
theorem State.updateLine_noRoom (s : State) (n : LineNo) (k : Line) (hroom : ¬ s.hasRoom) : (s.updateLine n k).line n = k := by
  have kept : ¬ (s.updateLine n k).hasRoom ∧ (s.updateLine n k).line n = k := by
    refine State.settle_induction (lineProducers n) (P := fun t => ¬ t.hasRoom ∧ t.line n = k) (fun _ _ h => h) ?_ ?_
      settleBound ⟨hroom, State.line_setLine_same _ _ _⟩
    · rintro t q ⟨hnot, -⟩ - - - hyes
      exact absurd hyes hnot
    · rintro t q ⟨-, hline⟩ - - -
      exact ⟨fun h => by simpa [State.withWaiting] using h.2, hline⟩
  exact kept.2

/-- A unit of a line with nothing new to offer waits, or has nothing composed. -/
theorem State.CommandAtHead.unit_quiet {s : State} {n : LineNo} {m : Member LineCommand} {ms : List (Member LineCommand)}
    {p : CommandProgress} (h : s.CommandAtHead n m ms p) {q : Producer} (hq : q.lineOf = some n) :
    q ∈ s.backlog.waiting ∨ (s.line n).onOffer q = none := by
  by_contra hnot
  rw [not_or] at hnot
  have hmem : q ∈ s.newOffers (lineProducers n) := by
    rw [State.mem_newOffers, State.onOffer_line s hq]
    exact ⟨mem_lineProducers.mpr hq, Option.isSome_iff_ne_none.mpr hnot.2, hnot.1⟩
  rw [show s.newOffers (lineProducers n) = [] from h.quiet] at hmem
  exact absurd hmem List.not_mem_nil

/-- Settles O45: by whether the class reaches a record, and by what the units make of it. -/
theorem abortLineTaken : Obligations.AbortLineTaken := by
  refine ⟨fun s n m ms c h hb => ?_, fun l i waitFor count hp => ⟨l.recordEntered_waits i hp, l.recordEntered_last i hp⟩,
    fun l c => ⟨fun hmode => ?_, fun hmode => ?_⟩⟩
  · intro l slots hs hallowed
    set w : Line := { l with progress := .abort slots slots.length } with hw
    have hcommand : l.headCommand = some m.body := h.headCommand
    have hclass : ¬ (l.isPoll = true ∧ c ≠ .all) := by
      rintro ⟨hpoll, hne⟩
      rcases hallowed with hmode | hall
      · rw [Line.isPoll_of_stream hmode] at hpoll; cases hpoll
      · exact hne hall
    have habort : l.abort = some (if slots = [] then l.finishCommand .ok 0 0 else w.abortUnits c) :=
      l.abort_enabled (hb ▸ hcommand) hs hclass
    have hexec (hne : slots ≠ []) : exec (.abortLine n) s = .next (s.updateLine n (w.abortUnits c)) :=
      exec_onLine_some (f := Line.abort) rfl (habort.trans (by rw [if_neg hne]))
    refine ⟨fun hnil => ?_, fun hne => ⟨_, hexec hne, State.updateLine_sameOutside _ _ _, State.updateLine_otherLines _ _ _, ?_⟩,
      fun hne => ?_⟩
    · exact h.ends_only (f := Line.abort) rfl (count := 0) (habort.trans (by rw [if_pos hnil]))
    · intro k
      have advanced := s.updateLine_advanced n (w.abortUnits c)
      have hnoRoom (hcontrol : (w.abortUnits c).control = l.control) (hprogress : (w.abortUnits c).progress = w.progress)
          (hroom : ¬ s.hasRoom) : k.control = l.control ∧ k.progress = w.progress := by
        rw [show k = w.abortUnits c from s.updateLine_noRoom n _ hroom]
        exact ⟨hcontrol, hprogress⟩
      cases hmode : l.record.mode with
      | poll =>
        have hcut := w.endPolls_cutShort .aborted
        rw [← w.abortUnits_poll c (Line.isPoll_of_poll hmode)] at hcut
        exact ⟨advanced.record.trans hcut.record, advanced.state.trans hcut.state,
          fun _ => advanced.poll.none_listed (hcut.poll.none_listed (endedBehind_not_listed _ _)), nofun, nofun, nofun, nofun,
          hnoRoom hcut.control hcut.progress⟩
      | stream =>
        obtain ⟨hline, htx, htx', hfiller, hfiller'⟩ := w.abortUnits_stream c (Line.isPoll_of_stream hmode)
        have hrecord : (w.abortUnits c).record = l.record := by rw [hline]
        have hstate : (w.abortUnits c).state = l.state := by rw [hline]
        have hcontrol : (w.abortUnits c).control = l.control := by rw [hline]
        have hprogress : (w.abortUnits c).progress = w.progress := by rw [hline]
        have hrx : (w.abortUnits c).rx = l.rx := by rw [hline]
        refine ⟨advanced.record.trans hrecord, advanced.state.trans hstate, nofun,
          fun _ hc => advanced.tx.none_listed (htx hc).not_listed, fun _ hc => advanced.filler.none_listed (hfiller hc).2,
          fun _ hc => ?_, fun _ hc => ?_, hnoRoom hcontrol hprogress⟩
        · have still := s.updateLine_unit_still n (w.abortUnits c) (fun l => (l.filler, l.rx, l.record)) (.data n) ?_ ?_
          · simp only [Prod.mk.injEq] at still
            exact ⟨still.1.trans (hfiller' hc), still.2.1.trans hrx⟩
          · refine (h.unit_quiet (q := .data n) rfl).imp_right fun hnone j hj => ?_
            simp only [Prod.mk.injEq] at hj
            obtain ⟨hjf, -, hjr⟩ := hj
            have hj' : j.isPoll = false := Line.isPoll_of_stream (by rw [hjr, hrecord, hmode])
            have hs' : (s.line n).isPoll = false := Line.isPoll_of_stream hmode
            rw [← hnone]
            simp only [Line.onOffer, hj', hjf, hfiller' hc, hs']
            rfl
          · intro j i r q hq hne
            cases q <;> cases hq
            · rfl
            · exact absurd rfl hne
            · obtain ⟨control, progress, heq⟩ := Line.recordEntered_eq { j with tx := { j.tx with list := j.tx.list.tail } } i
              simp only [Line.movedOn, Line.sendEntered, heq]
        · have still := s.updateLine_unit_still n (w.abortUnits c) Line.tx (.transmitter n) ?_ ?_
          · exact still.trans (htx' hc)
          · refine (h.unit_quiet (q := .transmitter n) rfl).imp_right fun hnone j hj => ?_
            rw [← hnone]
            simp only [Line.onOffer, hj, htx' hc]
            rfl
          · intro j i r q hq hne
            cases q <;> cases hq
            · rfl
            · simp only [Line.movedOn]
              split
              · obtain ⟨control, progress, heq⟩ :=
                  Line.recordEntered_eq { j with poll := { j.poll with list := j.poll.list.tail, attempt := .none } } i
                rw [Line.pollEntered, heq]
              · exact j.bufferEntered_tx i r
            · exact absurd rfl hne
    · intro w'
      refine ⟨w.abortUnits c, hexec hne, fun hmode => ?_, fun hmode => ?_⟩
      · rw [w.abortUnits_poll c (Line.isPoll_of_poll hmode)]
        exact Line.endPolls_spec _ .aborted (.inl rfl) (Line.isPoll_of_poll hmode)
      · obtain ⟨hline, htx, htx', hfiller, hfiller'⟩ := w.abortUnits_stream c (Line.isPoll_of_stream hmode)
        exact ⟨hline, htx, htx', fun hc => (hfiller hc).1, hfiller'⟩
  · simpa [Line.reachedByAbort, Line.isPoll_of_poll hmode] using l.reachedPolls_spec
  · refine ⟨l.reachedSends, l.reachedBuffers, l.reachedSends_spec, l.reachedBuffers_spec, ?_, ?_, ?_⟩ <;>
      rintro rfl <;> simp [Line.reachedByAbort, Line.isPoll_of_stream hmode]

end Sys2Proof.Machine

/-! PROOFS of O51 (how a buffer closes) and O46 (RESUME_RX and FLUSH_RX). -/

namespace Sys2Proof.Machine

/-! ### One new offer of a line -/

/-- The data unit's completion is the one new offer of a step that leaves the others' offers as they were. -/
theorem State.newOffers_data {s : State} {n : LineNo} {k : Line} {x : Slot × Result}
    (quiet : s.newOffers (lineProducers n) = []) (hc : headResult k.control = headResult (s.line n).control)
    (ht : headResult k.tx.list = headResult (s.line n).tx.list) (hoff : (s.setLine n k).onOffer (.data n) = some x)
    (hnot : .data n ∉ s.backlog.waiting) : (s.setLine n k).newOffers (lineProducers n) = [.data n] := by
  have hcontrol : (s.setLine n k).onOffer (.control n) = s.onOffer (.control n) := by simp [State.onOffer, hc]
  have htransmitter : (s.setLine n k).onOffer (.transmitter n) = s.onOffer (.transmitter n) := by simp [State.onOffer, ht]
  simp only [State.newOffers, lineProducers, List.filter_eq_nil_iff, List.mem_cons, List.not_mem_nil, or_false,
    forall_eq_or_imp, forall_eq] at quiet
  simp only [State.newOffers, lineProducers, List.filter_cons, hoff, hcontrol, htransmitter, State.setLine_backlog, quiet.2.1,
    quiet.2.2]
  simp [hnot]

/-- The transmitter's completion is the one new offer of a step that leaves the others' offers as they were. -/
theorem State.newOffers_transmitter {s : State} {n : LineNo} {k : Line} {x : Slot × Result}
    (quiet : s.newOffers (lineProducers n) = []) (hc : headResult k.control = headResult (s.line n).control)
    (hd : (s.setLine n k).onOffer (.data n) = s.onOffer (.data n))
    (hoff : (s.setLine n k).onOffer (.transmitter n) = some x)
    (hnot : .transmitter n ∉ s.backlog.waiting) : (s.setLine n k).newOffers (lineProducers n) = [.transmitter n] := by
  have hcontrol : (s.setLine n k).onOffer (.control n) = s.onOffer (.control n) := by simp [State.onOffer, hc]
  simp only [State.newOffers, lineProducers, List.filter_eq_nil_iff, List.mem_cons, List.not_mem_nil, or_false,
    forall_eq_or_imp, forall_eq] at quiet
  simp only [State.newOffers, lineProducers, List.filter_cons, hoff, hcontrol, hd, State.setLine_backlog, quiet.1,
    quiet.2.2]
  simp [hnot]

/-! ### How a buffer closes (04 R74, R75, R77) -/

/-- The line as the close of its head buffer is decided. -/
def Line.closing (l : Line) (reason : CloseReason) : Line :=
  { l with filler := { l.filler with state := .closing, reason },
           rx := { l.rx with armed := l.rx.armed && !l.rx.fifo.isEmpty } }

theorem Line.closeBuffer_eq (l : Line) (reason : CloseReason) :
    l.closeBuffer reason = (l.closing reason).requestBufferWrite.composeBuffer := rfl

/-- In CLOSING what is assembled is requested as soon as no write is outstanding. -/
theorem Line.requestBufferWrite_closing {l : Line} {m : Member BufferBody} {ms : List (Member BufferBody)}
    (hs : l.filler.state = .closing) (hl : l.filler.list = m :: ms) (ho : l.filler.outstanding = none)
    (ha : l.filler.assembly ≠ []) :
    l.requestBufferWrite = { l with filler := { l.filler with
      assembly := []
      outstanding := some
        { address := m.body.address + BitVec.ofNat 40 (l.filler.fill - l.filler.assembly.length)
          size := l.filler.assembly.length
          bytes := l.filler.assembly } } } := by
  rw [l.requestBufferWrite_spec, if_pos ⟨ho, ha, .inr (.inr hs)⟩]
  simp [assemblyWrite, Filler.headBuffer, hl]

theorem Line.requestBufferWrite_nothing {l : Line} (h : l.filler.outstanding ≠ none ∨ l.filler.assembly = []) :
    l.requestBufferWrite = l := by
  rw [l.requestBufferWrite_spec]
  refine if_neg fun hc => ?_
  rcases h with h | h
  · exact h hc.1
  · exact hc.2.1 h

/-- Nothing is left to write: the head buffer's completion is composed. -/
theorem Line.composeBuffer_done {l : Line} (hs : l.filler.state = .closing) (ha : l.filler.assembly = [])
    (ho : l.filler.outstanding = none) :
    l.composeBuffer = { l with filler := { l.filler with
      state := .offering
      list := completedHead
        { status := l.filler.endStatus.getD .ok, count := BitVec.ofNat 16 l.filler.written,
          detail := bufferDetail l.filler.reason l.filler.firstMarked l.filler.errors l.filler.dropped } l.filler.list } } := by
  simp [Line.composeBuffer, hs, ha, ho, Line.offerBuffer, finishHead_eq]

theorem Line.composeBuffer_waits {l : Line}
    (h : l.filler.state ≠ .closing ∨ l.filler.assembly ≠ [] ∨ l.filler.outstanding ≠ none) : l.composeBuffer = l := by
  unfold Line.composeBuffer
  refine if_neg fun hc => ?_
  rcases h with h | h | h
  · exact h hc.1
  · exact h hc.2.1
  · exact h hc.2.2

section Quiet

variable {s : State} {n : LineNo} {k : Line}

/-- A step of a STREAM line that leaves the heads of its lists as they were offers nothing. -/
theorem State.updateLine_quiet_stream (h : s.noNewOffers n) (hr : k.record = (s.line n).record)
    (hc : k.control = (s.line n).control) (ht : k.tx.list = (s.line n).tx.list)
    (hf : k.filler.list = (s.line n).filler.list) (hp : k.poll.list = (s.line n).poll.list) :
    s.updateLine n k = s.setLine n k :=
  s.updateLine_quiet n k h (by simp [Line.isPoll, hr]) (by rw [hc]) (by rw [ht]) (by rw [hf]) (by rw [hp])

/-- The completion of the head buffer of a STREAM line is composed, and reported. -/
theorem State.updateLine_bufferDone (h : s.noNewOffers n) (hmode : k.record.mode = .stream)
    (hc : k.control = (s.line n).control) (ht : k.tx.list = (s.line n).tx.list) {m : Member BufferBody}
    {ms : List (Member BufferBody)} {r : Result} (hf : k.filler.list = completedHead r (m :: ms))
    (hnot : .data n ∉ s.backlog.waiting) : s.Reports (s.updateLine n k) (.data n) m.slot r := by
  have hoff : (s.setLine n k).onOffer (.data n) = some (m.slot, r) := by
    simp [State.onOffer, Line.isPoll_of_stream hmode, hf, completedHead, headResult]
  exact s.updateLine_completes n k _ _ _
    (State.newOffers_data h (by rw [hc]) (by rw [ht]) hoff hnot) hoff

end Quiet

/-- Settles O51: by whether a write is outstanding, and whether bytes are assembled. -/
theorem bufferCloses : Obligations.BufferCloses := by
  intro s n l reason m ms h hr hc ht hp hmode hl hactive hend hlist hnot closed
  have hclosed : l.closing reason = closed := rfl
  have hrest : closed.record = (s.line n).record ∧ closed.control = (s.line n).control ∧
      closed.tx.list = (s.line n).tx.list ∧ closed.poll.list = (s.line n).poll.list :=
    ⟨hr, hc, congrArg Transmitter.list ht, congrArg PollEngine.list hp⟩
  obtain ⟨hr', hc', ht', hp'⟩ := hrest
  refine ⟨fun ho => ?_, fun ho ha => ?_, fun ho ha => ?_⟩
  · rw [l.closeBuffer_eq, hclosed, Line.requestBufferWrite_nothing (l := closed) (.inl ho),
      Line.composeBuffer_waits (l := closed) (.inr (.inr ho))]
    exact State.updateLine_quiet_stream h hr' hc' ht' hlist.symm hp'
  · rw [l.closeBuffer_eq, hclosed, Line.requestBufferWrite_closing (l := closed) rfl hl ho ha,
      Line.composeBuffer_waits (.inr (.inr (by simp)))]
    exact State.updateLine_quiet_stream h hr' hc' ht' hlist.symm hp'
  · rw [l.closeBuffer_eq, hclosed, Line.requestBufferWrite_nothing (l := closed) (.inr ha),
      Line.composeBuffer_done (l := closed) rfl ha ho]
    have hstatus : closed.filler.endStatus.getD .ok = .ok := by
      have : closed.filler.endStatus = none := hend
      rw [this]
      rfl
    have hhead : closed.filler.list = m :: ms := hl
    rw [hstatus, hhead]
    refine State.updateLine_bufferDone (ms := ms) h ?_ ?_ ?_ ?_ hnot
    exacts [hmode, hc', ht', rfl]

/-! ### The end of a FLUSH_RX (04 R81, R82) -/

/-- The flushed buffer's completion has entered: the FLUSH_RX completes with its count and close reason. -/
theorem Line.bufferEntered_flushed (l : Line) (r : Result) {f : FlushRecord} (hp : l.progress = .flush)
    (hf : l.filler.flush = some f) :
    l.bufferEntered f.slot r = { l.nextBuffer with
      filler := { l.nextBuffer.filler with flush := none }
      progress := .untaken
      control := completedHead
        { status := .ok, count := r.count,
          detail := flushDetail (if f.atMark = true then .closedAtMark else .closedBeforeMark) r.detail } l.control } := by
  simp [Line.bufferEntered, Line.flushedEntered, hf, hp, Line.finishCommand, Line.recordEntered, finishHead_eq]

/-- Another buffer's completion has entered: the FLUSH_RX goes on. -/
theorem Line.bufferEntered_otherFlushed (l : Line) {i : Slot} (r : Result) {f : FlushRecord} (hp : l.progress = .flush)
    (hf : l.filler.flush = some f) (hne : f.slot ≠ i) : l.bufferEntered i r = l.nextBuffer := by
  simp [Line.bufferEntered, Line.flushedEntered, hf, hp, hne, Line.recordEntered]

/-- A FLUSH_RX that waits is taken up as the next buffer becomes the head. -/
theorem Line.bufferEntered_handed (l : Line) (i : Slot) (r : Result) (hp : l.progress = .flushHanded) :
    l.bufferEntered i r = l.nextBuffer.takeUpFlush := by
  have hflushed : l.nextBuffer.flushedEntered i r = l.nextBuffer := by
    unfold Line.flushedEntered
    split
    · exact if_neg (by simp [hp])
    · rfl
  simp [Line.bufferEntered, hflushed, Line.recordEntered, hp]

theorem Line.takeUpFlush_idle (l : Line) (h : l.filler.state = .idle) : l.takeUpFlush = l.finishCommand .ok 0 3 := by
  simp only [Line.takeUpFlush, h]
  rfl

theorem Line.takeUpFlush_busy (l : Line) (h : l.filler.state = .closing ∨ l.filler.state = .offering) :
    l.takeUpFlush = { l with progress := .flushHanded } := by
  rcases h with h | h <;> simp only [Line.takeUpFlush, h]

theorem Line.takeUpFlush_staged (l : Line) {b : Member BufferBody} {bs : List (Member BufferBody)} {es : List Staged}
    {e : Staged} (h : l.filler.state = .filling) (hl : l.filler.list = b :: bs) (hf : l.rx.fifo = es ++ [e]) :
    l.takeUpFlush = { l with
      progress := .flush
      filler := { l.filler with flush := some { slot := b.slot, ahead := some es.length, atMark := false } }
      rx := { l.rx with fifo := es ++ [{ e with close := some .flush }], armed := false } } := by
  simp [Line.takeUpFlush, h, hl, hf, Line.placeMark, markNewest_concat]

theorem Line.takeUpFlush_empty (l : Line) {b : Member BufferBody} {bs : List (Member BufferBody)}
    (h : l.filler.state = .filling) (hl : l.filler.list = b :: bs) (hf : l.rx.fifo = []) :
    l.takeUpFlush = Line.closeBuffer { l with
      progress := .flush
      filler := { l.filler with flush := some { slot := b.slot, ahead := none, atMark := true } } } .flush := by
  simp [Line.takeUpFlush, h, hl, hf]

/-! ### RESUME_RX (02 R40) -/

theorem Line.hardwareFlow_iff (l : Line) :
    l.hardwareFlow = true ↔ l.record.mode = .stream ∧ l.record.flow = .hardware := by simp [Line.hardwareFlow]

/-- RTS after an entry has been taken (03 R59). -/
theorem Line.rtsAfterTake_eq (l : Line) :
    l.rtsAfterTake = { l with rts := if (l.record.mode = .stream ∧ l.record.flow = .hardware) ∧ l.rx.held = false ∧
      l.rx.fifo.length ≤ 2 then true else l.rts } := by
  have hcond : (l.hardwareFlow && !l.rx.held && decide (l.rx.fifo.length ≤ 2)) = true ↔
      (l.record.mode = .stream ∧ l.record.flow = .hardware) ∧ l.rx.held = false ∧ l.rx.fifo.length ≤ 2 := by
    rw [Bool.and_eq_true, Bool.and_eq_true, l.hardwareFlow_iff, Bool.not_eq_true', decide_eq_true_iff, and_assoc]
  unfold Line.rtsAfterTake
  by_cases h : (l.hardwareFlow && !l.rx.held && decide (l.rx.fifo.length ≤ 2)) = true
  · rw [if_pos h, if_pos (hcond.mp h)]
  · rw [if_neg h, if_neg (hcond.not.mp h)]

/-- HELD ends, and RTS follows the staging count. -/
theorem Line.endHeld_eq (l : Line) :
    l.endHeld = { l with
      rx := { l.rx with held := false }
      rts := if (l.record.mode = .stream ∧ l.record.flow = .hardware) ∧ l.state = .enabled ∧ l.rx.held = true ∧
        l.rx.fifo.length ≤ 2 then true else l.rts } := by
  cases hheld : l.rx.held with
  | false =>
    have hsame : { l with rx := { l.rx with held := false } } = l := by rw [← hheld]
    simp only [Line.endHeld, hheld, Bool.false_eq_true, false_and, and_false, if_false, hsame]
  | true =>
    by_cases hs : l.state = .enabled
    · simp only [Line.endHeld, hheld, if_true, Line.rtsAfterTake_eq, hs, true_and]
    · simp [Line.endHeld, hheld, hs]

/-- Settles O46: by the command's progress and the filler's state. -/
theorem resumeAndFlush : Obligations.ResumeAndFlush := by
  refine ⟨fun s n i e r hoff he hmode => ?_, fun l i r f hp hf => ?_, fun l w i r hleft => ⟨fun f hp hf => ?_, fun hp hother => ?_⟩,
    fun f i => ⟨fun hi ha => ?_, fun hi k ha => ?_, fun hn => ?_⟩, fun s n m ms h => ?_⟩
  · have hpoll : ((s.withAdmitted i e r).line n).isPoll = false := Line.isPoll_of_stream hmode
    rw [State.enterBacklog_admitted he hoff]
    simp only [State.producerMovesOn, hpoll, Bool.false_eq_true, if_false]
    rfl
  · intro k result
    refine ⟨fun hi => ?_, fun hi => ?_⟩
    · subst hi
      have hk : k = _ := l.bufferEntered_flushed r hp hf
      rw [hk]
      exact ⟨rfl, rfl, rfl⟩
    · have hk : k = l.nextBuffer := l.bufferEntered_otherFlushed r hp hf hi
      rw [hk]
      exact ⟨by rw [Line.nextBuffer_flush, hf], by rw [Line.nextBuffer_progress, hp], Line.nextBuffer_control l⟩
  · obtain rfl := hleft.unique
    intro result
    refine ⟨fun hi => ?_, fun hi => l.bufferEntered_otherFlushed r hp hf hi⟩
    subst hi
    exact l.bufferEntered_flushed r hp hf
  · obtain rfl := hleft.unique
    rw [l.bufferEntered_handed i r hp]
    refine ⟨fun htail => ?_, fun b bs htail => ⟨fun hb => ?_, fun hb es x hx => ?_, fun hb hx ho => ?_⟩⟩
    · have hidle : l.nextBuffer.filler.state = .idle := by
        unfold Line.nextBuffer
        rw [htail]
        dsimp only
        split <;> rfl
      rw [Line.takeUpFlush_idle _ hidle, Line.finishCommand, finishHead_eq, Line.nextBuffer_control]
      rfl
    · have hnext := (l.nextBuffer_left.2.2 b bs htail).2 hb
      have hoffering : l.nextBuffer.filler.state = .offering := by rw [hnext]
      have hhanded : l.nextBuffer.progress = .flushHanded := by rw [hnext, hp]
      rw [Line.takeUpFlush_busy _ (.inr hoffering), ← hhanded]
    · have hnext := (l.nextBuffer_left.2.2 b bs htail).1 hb
      have hfilling : l.nextBuffer.filler.state = .filling := by rw [hnext]
      have hlist : l.nextBuffer.filler.list = { b with phase := .active } :: bs := by rw [hnext]
      have hfifo : l.nextBuffer.rx.fifo = es ++ [x] := by rw [hnext]; exact hx
      rw [Line.takeUpFlush_staged _ hfilling hlist hfifo]
    · have hnext := (l.nextBuffer_left.2.2 b bs htail).1 hb
      have hfilling : l.nextBuffer.filler.state = .filling := by rw [hnext]
      have hlist : l.nextBuffer.filler.list = { b with phase := .active } :: bs := by rw [hnext]
      have hfifo : l.nextBuffer.rx.fifo = [] := by rw [hnext]; exact hx
      rw [Line.takeUpFlush_empty _ hfilling hlist hfifo, Line.closeBuffer_eq,
        Line.requestBufferWrite_nothing (.inr (by rw [hnext]; rfl)),
        Line.composeBuffer_done rfl (by rw [hnext]; rfl) (by rw [hnext]; exact ho)]
      rw [hnext]
      simp [Line.closing, hx, completedHead]
  · simp [FlushRecord.afterTake, hi, ha]
  · simp [FlushRecord.afterTake, hi, ha]
  · rcases hn with hn | hn <;> simp [FlushRecord.afterTake, hn]
  · intro l hardware
    have hcommand : l.headCommand = some m.body := h.headCommand
    refine ⟨fun hb => ?_, fun hb hs hmode => ⟨fun hidle => ?_, fun hbusy => ?_, fun b bs hl hfill =>
      ⟨fun es e he => ?_, fun he hactive hend hnot => ?_⟩⟩⟩
    · refine h.ends (f := Line.resume) rfl (count := l.rx.lost) (k := _) ?_ rfl
        (State.onOffer_setLine s n (fun q => by cases q <;> rfl) _) rfl
      show l.resume = _
      rw [Line.resume, hcommand, hb]
      simp only [Line.endHeld_eq]
      rfl
    · refine h.ends_only (f := Line.flush) rfl (count := 0) ?_
      show l.flush = _
      simp [Line.flush, hcommand, hb, hs, Line.isPoll_of_stream hmode, Line.takeUpFlush_idle l hidle]
      rfl
    all_goals
      have hexec : exec (.flushRx n) s = .next (s.updateLine n l.takeUpFlush) := by
        refine exec_onLine_some (f := Line.flush) rfl ?_
        show l.flush = _
        simp [Line.flush, hcommand, hb, hs, Line.isPoll_of_stream hmode]
      rw [hexec]
    · rw [Line.takeUpFlush_busy l hbusy]
      exact congrArg _ (State.updateLine_quiet_stream h.quiet rfl rfl rfl rfl rfl)
    · rw [Line.takeUpFlush_staged l hfill hl he]
      exact congrArg _ (State.updateLine_quiet_stream h.quiet rfl rfl rfl rfl rfl)
    · refine ⟨_, rfl, ?_⟩
      rw [Line.takeUpFlush_empty l hfill hl he]
      obtain ⟨hout, hasm, hdone⟩ := bufferCloses s n { l with
        progress := .flush
        filler := { l.filler with flush := some { slot := b.slot, ahead := none, atMark := true } } } .flush b bs h.quiet
        rfl rfl rfl rfl hmode hl hactive hend rfl hnot
      refine ⟨fun ha ho => hdone ho ha, fun hpending => ?_⟩
      by_cases ho : l.filler.outstanding = none
      · rw [hasm ho (hpending.resolve_right (fun hne => hne ho))]
        simp [State.line_setLine_same]
      · rw [hout ho]
        simp [State.line_setLine_same]

end Sys2Proof.Machine

/-! PROOFS of O47 (samples), O49 (completed characters) and O50 (the idle gap). -/

namespace Sys2Proof.Machine

section QuietSteps

variable {s : State} {n : LineNo} {i : Instr} {f : Line → Option Line}

/-- A step of line `n` that leaves its record and lists as they were offers nothing. -/
theorem exec_onLine_quiet (h : s.noNewOffers n) (hexec : exec i s = onLine n f s) {k : Line} (hf : f (s.line n) = some k)
    (hr : k.record = (s.line n).record) (hc : k.control = (s.line n).control) (ht : k.tx.list = (s.line n).tx.list)
    (hb : k.filler.list = (s.line n).filler.list) (hp : k.poll.list = (s.line n).poll.list) :
    exec i s = .next (s.setLine n k) := by
  rw [exec_onLine_some hexec hf, State.updateLine_quiet_stream h hr hc ht hb hp]

end QuietSteps

/-- Settles O47: by the receiver's state. -/
theorem receiverSamples : Obligations.ReceiverSamples := by
  intro s n h l becomes
  have still {i : Instr} {f : Line → Option Line} {rx : Receiver} (hexec : exec i s = onLine n f s)
      (hf : f l = some { l with rx := rx }) : becomes i rx := exec_onLine_quiet h hexec hf rfl rfl rfl rfl rfl
  refine ⟨fun hs => still (f := Line.fallingEdge) rfl ?_, fun hs => ⟨still (f := Line.startCheck true) rfl ?_,
    still (f := Line.startCheck false) rfl ?_⟩, fun hs level => still (f := Line.dataBit level) rfl ?_,
    fun hs => still (f := Line.waitMarkEnd) rfl ?_, fun hs => exec_onLine_none (f := Line.fallingEdge) rfl (if_neg hs),
    fun hs level => exec_onLine_none (f := Line.startCheck level) rfl (if_neg hs),
    fun hs level => exec_onLine_none (f := Line.dataBit level) rfl (if_neg hs),
    fun hs => exec_onLine_none (f := Line.waitMarkEnd) rfl (if_neg hs),
    fun hs level => exec_onLine_none (f := Line.characterComplete level) rfl (if_neg hs)⟩
  · exact if_pos hs
  · exact if_pos hs
  · exact if_pos hs
  · rw [Line.dataBit, if_pos hs]
    simp only [LineRecord.bitsPerCharacter, List.length_append, List.length_singleton, ← Nat.not_lt, ite_not]
  · exact if_pos hs

/-- Settles O50: by whether the armed flag is set, and whether entries are staged. -/
theorem idleGapFires : Obligations.IdleGapFires := by
  intro s n h l stopped becomes
  have fires (ht : l.rx.idleTimer ≠ none) : l.idleGapFire = some
      (if !l.rx.armed then stopped
       else if !l.rx.fifo.isEmpty then stopped.placeMark .idleGap
       else if l.filler.state = .filling ∧ 1 ≤ l.filler.fill then stopped.closeBuffer .idleGap
       else stopped) := if_pos (Option.isSome_iff_ne_none.mpr ht)
  have still {k : Line} (hf : l.idleGapFire = some k) (hr : k.record = l.record) (hc : k.control = l.control)
      (ht : k.tx.list = l.tx.list) (hb : k.filler.list = l.filler.list) (hp : k.poll.list = l.poll.list) : becomes k :=
    exec_onLine_quiet (f := Line.idleGapFire) h rfl hf hr hc ht hb hp
  refine ⟨fun ht => exec_onLine_none (f := Line.idleGapFire) rfl (if_neg (by rw [ht]; simp)), fun ht => ⟨fun ha => ?_,
    fun ha => ⟨fun es e he => ?_, fun he hf => ?_, fun he hf hfill => ?_⟩⟩⟩
  · refine still ?_ rfl rfl rfl rfl rfl
    simp [fires ht, ha]
  · refine still ?_ rfl rfl rfl rfl rfl
    simp [fires ht, ha, he, Line.placeMark, markNewest_concat, stopped]
  · have hnot : ¬ (l.filler.state = .filling ∧ 1 ≤ l.filler.fill) := by
      rintro ⟨hs, hge⟩
      rcases hf with hf | hf
      · exact hf hs
      · omega
    refine still ?_ rfl rfl rfl rfl rfl
    simp only [fires ht, ha, he, hnot]
    rfl
  · refine exec_onLine_some (f := Line.idleGapFire) rfl ?_
    show l.idleGapFire = _
    rw [fires ht]
    simp [ha, he, hf, hfill]

/-! ### Completed characters (03 R48 to R63) -/

/-- The bit of a condition in an event set (11 Table 11.8). -/
def Condition.index : Condition → Nat
  | .brk => 0
  | .overrun => 1
  | .noBuffer => 2
  | .stray => 3
  | .lineError => 4

theorem Condition.bit_iff (c : Condition) (i : Nat) : c.bit.getLsbD i = true ↔ i = c.index := by
  match i with
  | 0 | 1 | 2 | 3 | 4 => cases c <;> decide
  | i + 5 =>
    rw [BitVec.getLsbD_of_ge _ _ (by omega)]
    cases c <;> simp [Condition.index]

/-- A condition that is raised sets its own bit, where the line reports it. -/
theorem raise_pending (c : Condition) (l : Line) (i : Nat) :
    (raise c l).event.pending.getLsbD i = true ↔
      l.event.pending.getLsbD i = true ∨ (i = c.index ∧ l.record.enable.getLsbD i = true) := by
  simp only [raise, BitVec.getLsbD_or, BitVec.getLsbD_and, Bool.or_eq_true, Bool.and_eq_true, c.bit_iff]
  rw [and_comm (a := l.record.enable.getLsbD i = true)]

/-- Line `k` is line `l` with the conditions of `holds` raised. -/
structure Line.Raised (l k : Line) (holds : Nat → Prop) : Prop where
  rest : k = { l with event := { l.event with pending := k.event.pending } }
  pending : ∀ i, k.event.pending.getLsbD i = true ↔
    l.event.pending.getLsbD i = true ∨ (holds i ∧ l.record.enable.getLsbD i = true)

theorem Line.Raised.refl (l : Line) {holds : Nat → Prop} (h : ∀ i, ¬ holds i) : l.Raised l holds :=
  ⟨rfl, fun i => by simp [h i]⟩

/-- A condition that is raised where `b` says so. -/
theorem raised_if (c : Condition) (l : Line) (b : Bool) :
    l.Raised (if b then raise c l else l) fun i => i = c.index ∧ b = true := by
  cases b with
  | true => exact ⟨rfl, fun i => by simp [raise_pending]⟩
  | false => exact .refl l (by simp)

theorem Line.Raised.congr {l k : Line} {p q : Nat → Prop} (h : l.Raised k p) (hpq : ∀ i, p i ↔ q i) : l.Raised k q :=
  ⟨h.rest, fun i => by rw [h.pending, hpq]⟩

theorem Line.Raised.trans {l k m : Line} {p q : Nat → Prop} (h : l.Raised k p) (j : k.Raised m q) :
    l.Raised m fun i => p i ∨ q i := by
  have hr : k.record = l.record := by rw [h.rest]
  refine ⟨?_, fun i => ?_⟩
  · have hm := j.rest
    rw [h.rest] at hm
    exact hm
  · rw [j.pending, h.pending, hr]
    tauto

/-- The conditions that a completed character carries. -/
theorem Line.raiseCarried_raised (l : Line) (e : Staged) :
    l.Raised (l.raiseCarried e) fun i => i = 4 ∧ (e.framing = true ∨ e.parity = true) ∨ i = 0 ∧ e.brk = true := by
  have herror := raised_if .lineError l (e.framing || e.parity)
  have hbreak := raised_if .brk (if (e.framing || e.parity) = true then raise .lineError l else l) e.brk
  exact (herror.trans hbreak).congr fun i => by simp [Condition.index]

/-- The character is stray (03 R63). -/
def Line.strays (l : Line) : Prop := l.record.mode = .poll ∧ l.poll.window = false

/-- The character finds the FIFO full, and the line becomes HELD (03 R54). -/
def Line.overruns (l : Line) : Prop := ¬ l.strays ∧ l.rx.held = false ∧ 8 ≤ l.rx.fifo.length

/-- The character is lost (03 R54, R55). -/
def Line.loses (l : Line) : Prop := ¬ l.strays ∧ (l.rx.held = true ∨ 8 ≤ l.rx.fifo.length)

/-- The character is staged (03 R53). -/
def Line.stages (l : Line) : Prop := ¬ l.strays ∧ ¬ l.loses

/-- Line `k` is line `l` after a completed character went to its place, with the conditions of `carried` raised before (03 R51,
R53 to R55, R59, R61, R63). -/
structure Line.Placed (l k : Line) (e : Staged) (carried : Nat → Prop) : Prop where
  rest : k = { l with rx := { l.rx with fifo := k.rx.fifo, held := k.rx.held, lost := k.rx.lost, stray := k.rx.stray,
                                        armed := k.rx.armed },
                      rts := k.rts, event := { l.event with pending := k.event.pending } }
  staged : l.stages → k.rx.fifo = l.rx.fifo ++ [e]
  unstaged : ¬ l.stages → k.rx.fifo = l.rx.fifo
  held : k.rx.held = true ↔ l.rx.held = true ∨ l.overruns
  lost : l.loses → k.rx.lost = if l.rx.lost + 1 ≤ 65535 then l.rx.lost + 1 else 65535
  unlost : ¬ l.loses → k.rx.lost = l.rx.lost
  stray : l.strays → k.rx.stray = if l.rx.stray + 1 ≤ 255 then l.rx.stray + 1 else 255
  unstray : ¬ l.strays → k.rx.stray = l.rx.stray
  rts : k.rts = false ∧ l.hardwareFlow = true ∧ (l.overruns ∨ l.stages ∧ 6 ≤ l.rx.fifo.length + 1) ∨
    k.rts = l.rts ∧ ¬ (l.hardwareFlow = true ∧ (l.overruns ∨ l.stages ∧ 6 ≤ l.rx.fifo.length + 1))
  armed : k.rx.armed = true ↔ l.rx.armed = true ∨ (l.stages ∧ l.record.mode ≠ .poll ∧ l.record.idleGap ≠ 0)
  pending : ∀ i, k.event.pending.getLsbD i = true ↔ l.event.pending.getLsbD i = true ∨
    ((carried i ∨ i = 1 ∧ l.overruns ∨ i = 2 ∧ (l.stages ∧ l.record.mode ≠ .poll ∧ l.hasOpenBuffer = false) ∨
        i = 3 ∧ l.strays) ∧ l.record.enable.getLsbD i = true)

/-- RTS after an entry has joined (03 R59). -/
theorem Line.rtsAfterJoin_eq (l : Line) :
    l.rtsAfterJoin = { l with rts := if (l.hardwareFlow && decide (6 ≤ l.rx.fifo.length)) = true then false else l.rts } := by
  unfold Line.rtsAfterJoin
  split <;> rfl

theorem Line.place_stray (l : Line) (e : Staged) (h : l.strays) : l.Placed (l.place e) e fun _ => False := by
  have hoverruns : ¬ l.overruns := fun ho => ho.1 h
  have hloses : ¬ l.loses := fun hl => hl.1 h
  have hstages : ¬ l.stages := fun hs => hs.1 h
  have hplace : l.place e = l.addStray := if_pos (by simp [Line.isPoll, h.1, h.2])
  rw [hplace]
  refine ⟨rfl, fun hs => absurd hs hstages, fun _ => rfl, ?_, fun hl => absurd hl hloses, fun _ => rfl, fun _ => rfl,
    fun hn => absurd h hn, .inr ⟨rfl, ?_⟩, ?_, fun i => (raise_pending _ _ i).trans ?_⟩ <;>
    simp [hoverruns, hstages, h, Line.addStray, raise, Condition.index]

theorem Line.place_held (l : Line) (e : Staged) (h : ¬ l.strays) (hheld : l.rx.held = true) : l.Placed (l.place e) e fun _ => False := by
  have hoverruns : ¬ l.overruns := fun ho => absurd ho.2.1 (by simp [hheld])
  have hloses : l.loses := ⟨h, .inl hheld⟩
  have hstages : ¬ l.stages := fun hs => hs.2 hloses
  have hstray : (l.isPoll && !l.poll.window) = false := by simpa [Line.isPoll, Line.strays] using h
  have hplace : l.place e = l.addLost 1 := by simp [Line.place, hstray, hheld]
  rw [hplace]
  refine ⟨rfl, fun hs => absurd hs hstages, fun _ => rfl, ?_, fun _ => rfl, fun hn => absurd hloses hn, fun hs => absurd hs h,
    fun _ => rfl, .inr ⟨rfl, ?_⟩, ?_, fun i => ?_⟩ <;>
    simp [hoverruns, hstages, h, Line.addLost]

theorem Line.place_overrun (l : Line) (e : Staged) (h : l.overruns) : l.Placed (l.place e) e fun _ => False := by
  obtain ⟨hnot, hheld, hfull⟩ := id h
  have hloses : l.loses := ⟨hnot, .inr hfull⟩
  have hstages : ¬ l.stages := fun hs => hs.2 hloses
  have hstray : (l.isPoll && !l.poll.window) = false := by simpa [Line.isPoll, Line.strays] using hnot
  have hfull' : Config.stagingDepth ≤ l.rx.fifo.length := hfull
  have hplace : l.place e = { raise .overrun (Line.addLost { l with rx := { l.rx with held := true } } 1) with
      rts := if l.hardwareFlow = true then false else l.rts } := by
    simp only [Line.place, hstray, hheld, hfull', Line.overrun]
    cases l.hardwareFlow <;> rfl
  rw [hplace]
  refine ⟨rfl, fun hs => absurd hs hstages, fun _ => rfl, ?_, fun _ => rfl, fun hn => absurd hloses hn,
    fun hs => absurd hs hnot, fun _ => rfl, ?_, ?_, fun i => (raise_pending _ _ i).trans ?_⟩
  · simp [h, raise, Line.addLost]
  · cases l.hardwareFlow <;> simp [h]
  · simp [hstages, raise, Line.addLost]
  · simp [h, hstages, hnot, Line.addLost, Condition.index]

theorem Line.place_staged (l : Line) (e : Staged) (h : l.stages) : l.Placed (l.place e) e fun _ => False := by
  obtain ⟨hnot, hkeeps⟩ := id h
  have hstray : (l.isPoll && !l.poll.window) = false := by simpa [Line.isPoll, Line.strays] using hnot
  have hheld : l.rx.held = false := by simpa using fun hh => hkeeps ⟨hnot, .inl hh⟩
  have hroom : ¬ Config.stagingDepth ≤ l.rx.fifo.length := fun hf => hkeeps ⟨hnot, .inr hf⟩
  have hoverruns : ¬ l.overruns := fun ho => hroom ho.2.2
  set joined : Line := { l with rx := { l.rx with
    fifo := l.rx.fifo ++ [e], armed := l.rx.armed || (!l.isPoll && l.record.idleGap != 0) } } with hjoined
  have hraised := raised_if .noBuffer joined (!l.isPoll && !l.hasOpenBuffer)
  have hplace : l.place e = { (if (!l.isPoll && !l.hasOpenBuffer) = true then raise .noBuffer joined else joined) with
      rts := if (l.hardwareFlow && decide (6 ≤ l.rx.fifo.length + 1)) = true then false else l.rts } := by
    simp only [Line.place, hstray, hheld, if_neg hroom, Line.stage, Line.rtsAfterJoin_eq]
    cases (!l.isPoll && !l.hasOpenBuffer) <;> simp [joined, raise, Line.hardwareFlow, hheld]
  rw [hplace, hraised.rest]
  refine ⟨rfl, fun _ => rfl, fun hs => absurd h hs, ?_, fun hl => absurd hl hkeeps, fun _ => rfl,
    fun hs => absurd hs hnot, fun _ => rfl, ?_, ?_, fun i => (hraised.pending i).trans ?_⟩
  · simp [hoverruns, joined]
  · have hcond : (l.hardwareFlow && decide (6 ≤ l.rx.fifo.length + 1)) = true ↔
        l.hardwareFlow = true ∧ (l.overruns ∨ l.stages ∧ 6 ≤ l.rx.fifo.length + 1) := by
      simp only [Bool.and_eq_true, decide_eq_true_eq, hoverruns, h, false_or, true_and]
    by_cases hc : (l.hardwareFlow && decide (6 ≤ l.rx.fifo.length + 1)) = true
    · exact .inl ⟨if_pos hc, hcond.mp hc⟩
    · exact .inr ⟨if_neg hc, hcond.not.mp hc⟩
  · simp [h, joined, Line.isPoll]
  · simp [h, hnot, hoverruns, joined, Condition.index, Line.isPoll]

/-- The character goes to one of four places. -/
theorem Line.place_placed (l : Line) (e : Staged) : l.Placed (l.place e) e fun _ => False := by
  by_cases hs : l.strays
  · exact l.place_stray e hs
  · by_cases hl : l.loses
    · by_cases hh : l.rx.held = true
      · exact l.place_held e hs hh
      · exact l.place_overrun e ⟨hs, by simpa using hh, hl.2.resolve_left hh⟩
    · exact l.place_staged e ⟨hs, hl⟩

theorem Line.hasOpenBuffer_eq_false (l : Line) :
    l.hasOpenBuffer = false ↔ l.filler.state ≠ .filling ∧ ∀ m ∈ l.filler.list, m.phase ≠ .listed := by
  simp [Line.hasOpenBuffer]

/-- The timers that a completed character restarts (03 R60, 06 R109, R116). -/
theorem Line.restartTimers_stream (l : Line) (h : l.record.mode ≠ .poll) :
    l.restartTimers = { l with rx := { l.rx with idleTimer :=
      if l.record.idleGap = 0 then l.rx.idleTimer else some (l.record.idleGap.toNat * 16 * l.record.frameLength) } } := by
  have hpoll : l.isPoll = false := by simpa [Line.isPoll] using h
  unfold Line.restartTimers
  rw [hpoll]
  by_cases hg : l.record.idleGap = 0
  · rw [if_pos hg, if_pos hg]
    rfl
  · rw [if_neg hg, if_neg hg]
    rfl

theorem Line.restartTimers_poll (l : Line) (h : l.record.mode = .poll) :
    l.restartTimers = { l with poll := { l.poll with
      quiet := decide (l.state = .enabled)
      gapTimer := if l.poll.window = true ∧ l.poll.attempt = .reply ∧ l.poll.tail = none then
        some (l.poll.headPoll.replyGap * 16 * l.record.frameLength) else l.poll.gapTimer } } := by
  simp [Line.restartTimers, Line.isPoll_of_poll h, LineRecord.characterTimes, beq_eq_decide]

/-- The place of a character depends on nothing that the conditions raised before it change. -/
theorem Line.Placed.of_raised {l m k : Line} {e : Staged} {carried : Nat → Prop} (h : l.Raised m carried)
    (hplaced : m.Placed k e fun _ => False) : l.Placed k e carried := by
  obtain ⟨hrest, hpending⟩ := h
  generalize hp : m.event.pending = p at hrest hpending
  subst hrest
  refine ⟨hplaced.rest, hplaced.staged, hplaced.unstaged, hplaced.held, hplaced.lost, hplaced.unlost, hplaced.stray,
    hplaced.unstray, hplaced.rts, hplaced.armed, fun i => (hplaced.pending i).trans ?_⟩
  rw [or_congr_left (hpending i), false_or]
  simp only [or_and_right, or_assoc]
  rfl

/-- The line after the receiver has read the stop bit (03 R48, R49). -/
def Line.stopRead (l : Line) (level : Bool) (brk : Bool) : Line :=
  { l with rx := { l.rx with state := if brk = true then .waitMark else .hunt, read := [], sample := 0, rxd := level } }

/-- A completed character: its conditions, its place, the timers. -/
theorem Line.characterComplete_placed {l : Line} (level : Bool) (h : l.rx.state = .stopCheck) :
    ∃ k, l.characterComplete level = some k.restartTimers ∧
      (l.stopRead level (classify l.record l.rx.read level).brk).Placed k (classify l.record l.rx.read level)
        fun i => i = 4 ∧ ((classify l.record l.rx.read level).framing = true ∨ (classify l.record l.rx.read level).parity = true) ∨
          i = 0 ∧ (classify l.record l.rx.read level).brk = true :=
  ⟨_, if_pos h, .of_raised (Line.raiseCarried_raised _ _) (Line.place_placed _ _)⟩

/-- A restart of the timers changes nothing else. -/
theorem Line.restartTimers_rest (l : Line) :
    l.restartTimers = { l with
      rx := { l.rx with idleTimer := l.restartTimers.rx.idleTimer }
      poll := { l.poll with quiet := l.restartTimers.poll.quiet, gapTimer := l.restartTimers.poll.gapTimer } } := by
  by_cases h : l.record.mode = .poll
  · rw [l.restartTimers_poll h]
  · rw [l.restartTimers_stream h]

/-- Settles O49: the conditions carried, then the character's place, then the timers. -/
theorem characterCompletes : Obligations.CharacterCompletes := by
  intro s n level h l e poll stray overrun lost staged hardware reports hs
  obtain ⟨k, hcomplete, placed⟩ := Line.characterComplete_placed level hs
  have hrest := placed.rest
  have hrestart := k.restartTimers_rest
  have hrecord : k.record = l.record := (congrArg Line.record hrest :)
  have hpoll : k.poll = l.poll := (congrArg Line.poll hrest :)
  have hstate : k.state = l.state := (congrArg Line.state hrest :)
  have hidle : k.rx.idleTimer = l.rx.idleTimer := (congrArg (·.rx.idleTimer) hrest :)
  have hstream := k.restartTimers_stream
  have hpolled := k.restartTimers_poll
  have hexec := exec_onLine_some (s := s) (n := n) (i := .characterComplete n level) rfl hcomplete
  rw [hrecord, hidle] at hstream
  rw [hrecord, hpoll, hstate] at hpolled
  generalize k.restartTimers = m at hrestart hstream hpolled hexec
  have hrx : m.rx = { k.rx with idleTimer := m.rx.idleTimer } := (congrArg Line.rx hrestart :)
  have hevent : m.event = k.event := (congrArg Line.event hrestart :)
  have hrts : m.rts = k.rts := (congrArg Line.rts hrestart :)
  have hm : m = { l with rx := m.rx, rts := m.rts, poll := { l.poll with quiet := m.poll.quiet, gapTimer := m.poll.gapTimer },
                         event := { l.event with pending := m.event.pending } } := by
    rw [hrestart, hrest]
    rfl
  have hreports (i : Nat) (holds : Prop)
      (hi : ((i = 4 ∧ (e.framing = true ∨ e.parity = true) ∨ i = 0 ∧ e.brk = true) ∨ i = 1 ∧ overrun ∨
        i = 2 ∧ (staged ∧ ¬ poll ∧ l.hasOpenBuffer = false) ∨ i = 3 ∧ stray) ↔ holds) : reports m i holds := by
    show _ ↔ _ ∨ _
    rw [hevent, ← hi]
    exact placed.pending i
  have hkrx : k.rx.state = (if e.brk = true then .waitMark else .hunt) ∧ k.rx.read = [] ∧ k.rx.rxd = level := by
    rw [hrest]
    exact ⟨rfl, rfl, rfl⟩
  refine ⟨m, ?_, hm, ?_⟩
  · rw [hexec, State.updateLine_quiet_stream h] <;> rw [hm]
  · rw [hrx]
    refine ⟨hkrx.1, hkrx.2.1, hkrx.2.2, placed.staged, placed.unstaged, placed.held, placed.lost, placed.unlost, placed.stray,
      placed.unstray, ?_, placed.armed, hreports 0 _ ?_, hreports 1 _ ?_, hreports 2 _ ?_, hreports 3 _ ?_, hreports 4 _ ?_,
      fun hn => ?_, fun hp => ?_⟩
    · rw [hrts]
      have hcond : (l.stopRead level e.brk).hardwareFlow = true ↔ hardware := Line.hardwareFlow_iff _
      rcases placed.rts with ⟨hfalse, hflow, hwhen⟩ | ⟨hkept, hnot⟩
      · exact hfalse.trans (if_pos ⟨hcond.mp hflow, hwhen⟩).symm
      · exact hkept.trans (if_neg fun hh => hnot ⟨hcond.mpr hh.1, hh.2⟩).symm
    · simp
    · simp
    · simp [Line.hasOpenBuffer_eq_false]
    · simp
    · simp
    · rw [hstream hn]
      exact ⟨hpoll, rfl⟩
    · rw [hpolled hp]
      exact ⟨hidle, decide_eq_true_iff, rfl⟩

end Sys2Proof.Machine

/-! PROOFS of O44 (completions, details and reports as bytes) and O48 (frames). -/

namespace Sys2Proof.Machine

/-! ### The details of completions (11 Table 11.10) -/

theorem TxState.code_le (x : TxState) : x.code ≤ 5 := by cases x <;> decide
theorem CloseReason.code_le (x : CloseReason) : x.code ≤ 7 := by cases x <;> decide
theorem PollOutcome.code_le (x : PollOutcome) : x.code ≤ 7 := by cases x <;> decide
theorem FlushResult.code_bounds (x : FlushResult) : 1 ≤ x.code ∧ x.code ≤ 3 := by cases x <;> decide
theorem Status.code_le (x : Status) : x.code ≤ 12 := by cases x <;> decide

theorem TxState.listed (x : TxState) : [TxState.idle, .brk, .load, .send, .gap, .ctsWait][x.code]? = some x := by
  cases x <;> rfl

theorem CloseReason.listed (x : CloseReason) :
    [CloseReason.none, .full, .delimiter, .idleGap, .errorChar, .brk, .address, .flush][x.code]? = some x := by
  cases x <;> rfl

theorem PollOutcome.listed (x : PollOutcome) :
    [PollOutcome.none, .ok, .noStart, .addressMismatch, .framing, .collision, .overlong, .truncated][x.code]? = some x := by
  cases x <;> rfl

theorem FlushResult.listed (x : FlushResult) :
    [FlushResult.closedAtMark, .closedBeforeMark, .nothingClosed][x.code - 1]? = some x := by
  cases x <;> rfl

/-- A bit of a number of a known value. -/
theorem getLsbD_of_toNat {w v : Nat} {x : BitVec w} (h : x.toNat = v) (i : Nat) (b : Bool) :
    x.getLsbD i = b ↔ v / 2 ^ i % 2 = b.toNat := by
  rw [getLsbD_eq_iff, h]

/-- A field of a number of a known value. -/
theorem extract_of_toNat {w v : Nat} {x : BitVec w} (h : x.toNat = v) (at_ size : Nat) :
    (x.extractLsb' at_ size).toNat = v / 2 ^ at_ % 2 ^ size := by
  rw [toNat_extractLsb'_eq, h]

theorem sendDetail_fields (bytesRead : Nat) (breakDone : Bool) (endState : TxState) (h : bytesRead ≤ 4096) :
    let d := sendDetail bytesRead breakDone endState
    (d.extractLsb' 0 13).toNat = bytesRead ∧ d.getLsbD 15 = breakDone ∧ (d.extractLsb' 16 3).toNat = endState.code ∧
    ∀ i, i = 13 ∨ i = 14 ∨ 19 ≤ i → d.getLsbD i = false := by
  intro d
  have hcode := endState.code_le
  have hbool := breakDone.toNat_le
  have hd : d.toNat = bytesRead + 32768 * breakDone.toNat + 65536 * endState.code := by
    show _ % 2 ^ 32 = _
    omega
  rw [extract_of_toNat hd, extract_of_toNat hd, getLsbD_of_toNat hd]
  refine ⟨by omega, by omega, by omega, ?_⟩
  rintro i (rfl | rfl | hi)
  · rw [getLsbD_of_toNat hd, Bool.toNat_false]; omega
  · rw [getLsbD_of_toNat hd, Bool.toNat_false]; omega
  · exact getLsbD_of_lt (k := 19) (by omega) hi

theorem bufferDetail_fields (reason : CloseReason) (firstMarked : Bool) (errors dropped : Nat) (he : errors ≤ 255)
    (hdrop : dropped ≤ 255) :
    let d := bufferDetail reason firstMarked errors dropped
    (d.extractLsb' 0 3).toNat = reason.code ∧ d.getLsbD 7 = firstMarked ∧ (d.extractLsb' 8 8).toNat = errors ∧
    (d.extractLsb' 16 8).toNat = dropped ∧ ∀ i, 3 ≤ i ∧ i ≤ 6 ∨ 24 ≤ i → d.getLsbD i = false := by
  intro d
  have hcode := reason.code_le
  have hbool := firstMarked.toNat_le
  have hd : d.toNat = reason.code + 128 * firstMarked.toNat + 256 * errors + 65536 * dropped := by
    show _ % 2 ^ 32 = _
    omega
  rw [extract_of_toNat hd, extract_of_toNat hd, extract_of_toNat hd, getLsbD_of_toNat hd]
  refine ⟨by omega, by omega, by omega, by omega, ?_⟩
  rintro i (⟨hlow, hhigh⟩ | hi)
  · have hi : i = 3 ∨ i = 4 ∨ i = 5 ∨ i = 6 := by omega
    rw [getLsbD_of_toNat hd, Bool.toNat_false]
    rcases hi with rfl | rfl | rfl | rfl <;> omega
  · exact getLsbD_of_lt (k := 24) (by omega) hi

theorem pollDetail_fields (last : PollOutcome) (attempts : Nat) (seen : BitVec 7) (ha : attempts ≤ 8) :
    let d := pollDetail last attempts seen
    (d.extractLsb' 0 3).toNat = last.code ∧ (d.extractLsb' 4 4).toNat = attempts ∧
    (∀ code, 1 ≤ code → code ≤ 7 → d.getLsbD (7 + code) = seen.getLsbD (code - 1)) ∧
    ∀ i, i = 3 ∨ 15 ≤ i → d.getLsbD i = false := by
  intro d
  have hcode := last.code_le
  have hseen := seen.isLt
  have hd : d.toNat = last.code + 16 * attempts + 256 * seen.toNat := by
    show _ % 2 ^ 32 = _
    omega
  rw [extract_of_toNat hd, extract_of_toNat hd]
  refine ⟨by omega, by omega, fun code hlow hhigh => ?_, ?_⟩
  · rw [getLsbD_eq_decide seen, getLsbD_eq_decide d, hd, show 7 + code = 8 + (code - 1) by omega, Nat.pow_add, ← Nat.div_div_eq_div_mul,
      show (last.code + 16 * attempts + 256 * seen.toNat) / 2 ^ 8 = seen.toNat by omega]
  · rintro i (rfl | hi)
    · rw [getLsbD_of_toNat hd, Bool.toNat_false]; omega
    · exact getLsbD_of_lt (k := 15) (by omega) hi

theorem flushDetail_fields (result : FlushResult) (flushed : Word) :
    let d := flushDetail result flushed
    (d.extractLsb' 0 2).toNat = result.code ∧ (d.extractLsb' 4 3).toNat = (flushed.extractLsb' 0 3).toNat ∧
    ∀ i, i = 2 ∨ i = 3 ∨ 7 ≤ i → d.getLsbD i = false := by
  intro d
  obtain ⟨hlow, hhigh⟩ := result.code_bounds
  have hd : d.toNat = result.code + 16 * (flushed.toNat % 8) := by
    show _ % 2 ^ 32 = _
    omega
  rw [extract_of_toNat hd, extract_of_toNat hd, toNat_extractLsb'_eq flushed]
  refine ⟨by omega, by omega, ?_⟩
  rintro i (rfl | rfl | hi)
  · rw [getLsbD_of_toNat hd, Bool.toNat_false]; omega
  · rw [getLsbD_of_toNat hd, Bool.toNat_false]; omega
  · exact getLsbD_of_lt (k := 7) (by omega) hi

theorem PollOutcome.asSeen_bit (o : PollOutcome) (i : Nat) : o.asSeen.getLsbD i = decide (i + 1 = o.code) := by
  by_cases hi : i < 7
  · have all : ∀ i : Fin 7, o.asSeen.getLsbD i.val = decide (i.val + 1 = o.code) := by cases o <;> decide
    exact all ⟨i, hi⟩
  · have hcode := o.code_le
    rw [BitVec.getLsbD_of_ge _ _ (by omega), decide_eq_false (by omega)]

/-! ### Completions and line reports as bytes (11 Tables 11.9, 11.12) -/

theorem completionBytes_fields (c : Completion) (lap : Bool) :
    let b := completionBytes c lap
    b.length = 16 ∧ field b 0 2 = c.tag.toNat ∧ field b 2 1 = c.kind.toNat ∧ field b 3 1 = c.status.code ∧
    field b 4 1 % 16 = c.line.val ∧ field b 4 1 / 16 % 8 = c.sq.val ∧ field b 4 1 / 128 = lap.toNat ∧
    field b 5 1 = 0 ∧ field b 6 2 = c.count.toNat ∧ field b 8 4 = c.detail.toNat ∧ field b 12 4 = 0 := by
  have hstatus := c.status.code_le
  have hline := c.line.isLt
  have hsq := c.sq.isLt
  have hlap := lap.toNat_le
  have htag := c.tag.isLt
  have hcount := c.count.isLt
  have hdetail := c.detail.isLt
  simp only [completionBytes, leBytes, field, leNat, List.cons_append, List.nil_append, List.length_cons, List.length_nil,
    List.drop_succ_cons, List.drop_zero, List.take_succ_cons, List.take_zero, List.foldr_cons, List.foldr_nil,
    BitVec.toNat_ofNat]
  refine ⟨trivial, ?_, ?_, ?_, ?_, ?_, ?_, trivial, ?_, ?_, trivial⟩ <;> omega

theorem LineState.code_le (x : LineState) : x.code ≤ 2 := by cases x <;> decide
theorem Mode.code_le (x : Mode) : x.code ≤ 1 := by cases x <;> decide
theorem RxState.code_le (x : RxState) : x.code ≤ 5 := by cases x <;> decide
theorem AttemptState.code_le (x : AttemptState) : x.code ≤ 6 := by cases x <;> decide

theorem reportBytes_fields (l : Line) (h : l.WithinBounds) (htx : l.tx.list.length ≤ 64) (hfiller : l.filler.list.length ≤ 64)
    (hpoll : l.poll.list.length ≤ 64) (hcontrol : l.control.length ≤ 64) :
    let b := reportBytes l
    b.length = 32 ∧ field b 0 1 = l.record.configured.toNat ∧ field b 1 1 = l.state.code ∧
    field b 2 1 = l.record.mode.code ∧ field b 3 1 = l.rx.state.code ∧ field b 4 1 = l.rx.fifo.length ∧
    field b 5 1 = l.rx.held.toNat ∧ field b 6 2 = l.rx.lost ∧ field b 8 1 = l.rx.stray ∧
    field b 9 1 = l.event.pending.toNat ∧ field b 10 1 = l.event.queued.toNat ∧ field b 11 1 = l.tx.state.code ∧
    field b 12 1 = l.poll.attempt.code ∧ field b 13 1 = l.tx.list.length ∧ field b 14 1 = l.filler.list.length ∧
    field b 15 1 = l.poll.list.length ∧ field b 16 1 = l.control.length ∧ ∀ k, 17 ≤ k → k < 32 → field b k 1 = 0 := by
  have hconfigured := l.record.configured.toNat_le
  have hstate := l.state.code_le
  have hmode := l.record.mode.code_le
  have hrx := l.rx.state.code_le
  have hstaged := h.staged
  have hheld := l.rx.held.toNat_le
  have hlost := h.lost
  have hstray := h.stray
  have hpending := l.event.pending.isLt
  have hqueued := l.event.queued.toNat_le
  have htxs := l.tx.state.code_le
  have hattempt := l.poll.attempt.code_le
  simp only [reportBytes, leBytes, field, leNat, List.cons_append, List.nil_append, List.replicate, List.length_cons, List.length_nil,
    List.drop_succ_cons, List.drop_zero, List.take_succ_cons, List.take_zero, List.foldr_cons, List.foldr_nil,
    BitVec.toNat_ofNat]
  refine ⟨trivial, ?_, ?_, ?_, ?_, ?_, ?_, ?_, ?_, ?_, ?_, ?_, ?_, ?_, ?_, ?_, ?_, fun k hlow hhigh => ?_⟩
  case refine_17 =>
    interval_cases k <;> rfl
  all_goals omega

/-- Settles O44: each word and each block of bytes has its table. -/
theorem completionAndReportFields : Obligations.CompletionAndReportFields := by
  refine ⟨fun bytesRead breakDone endState h => ?_, fun reason firstMarked errors dropped he hd => ?_,
    fun last attempts seen ha => ?_, fun x => by cases x <;> rfl, fun x => by cases x <;> rfl, fun x => by cases x <;> rfl,
    fun x => by cases x <;> rfl, TxState.listed, fun x => by cases x <;> rfl, fun code o ho i => ?_, fun result flushed => ?_,
    completionBytes_fields, reportBytes_fields⟩
  · obtain ⟨hread, hbreak, hstate, hzero⟩ := sendDetail_fields bytesRead breakDone endState h
    exact ⟨hread, hbreak, (congrArg _ hstate).trans endState.listed, hzero⟩
  · obtain ⟨hreason, hmark, herrors, hdropped, hzero⟩ := bufferDetail_fields reason firstMarked errors dropped he hd
    exact ⟨(congrArg _ hreason).trans reason.listed, hmark, herrors, hdropped, hzero⟩
  · obtain ⟨hlast, hattempts, hseen, hzero⟩ := pollDetail_fields last attempts seen ha
    exact ⟨(congrArg _ hlast).trans last.listed, hattempts, hseen, hzero⟩
  · have hcode : code = o.code := by
      match code with
      | 0 | 1 | 2 | 3 | 4 | 5 | 6 | 7 => cases ho; rfl
      | code + 8 => cases ho
    rw [o.asSeen_bit, hcode]
  · obtain ⟨hresult, hflushed, hzero⟩ := flushDetail_fields result flushed
    exact ⟨(congrArg (fun code => [FlushResult.closedAtMark, .closedBeforeMark, .nothingClosed][code - 1]?) hresult).trans result.listed,
      result.code_bounds.1.trans hresult.ge, hflushed, hzero⟩

/-! ### Frames (02 R28, 03 Table 3.4) -/

/-- The value of bits, least significant first, has those bits. -/
theorem testBit_foldr (bits : List Bool) (i : Nat) :
    (bits.foldr (fun (b : Bool) acc => b.toNat + 2 * acc) 0).testBit i = bits.getD i false := by
  induction bits generalizing i with
  | nil => simp
  | cons b bits ih =>
    simp only [List.foldr_cons]
    cases i with
    | zero => cases b <;> simp [Nat.testBit_zero]
    | succ i =>
      rw [Nat.testBit_succ, List.getD_cons_succ, ← ih]
      congr 1
      have := b.toNat_le
      omega

/-- The bits of the byte that data bits spell. -/
theorem byteOfBits_bit (bits : List Bool) {i : Nat} (hi : i < 8) : (byteOfBits bits).getLsbD i = bits.getD i false := by
  rw [byteOfBits, BitVec.getLsbD_ofNat, testBit_foldr, decide_eq_true hi, Bool.true_and]

theorem ones_eq_zero (bits : List Bool) : ones bits = 0 ↔ ∀ b ∈ bits, b = false := by
  rw [ones, List.count_eq_zero]
  constructor
  · intro h b hb
    cases b with
    | false => rfl
    | true => exact absurd hb h
  · intro h hb
    exact absurd (h true hb) (by decide)

theorem getD_false_iff (bits : List Bool) (i : Nat) : bits.getD i false = true ↔ bits[i]? = some true := by
  rw [List.getD_eq_getElem?_getD]
  cases bits[i]? <;> simp

theorem parityError_iff (p : Parity) (bits : List Bool) :
    parityError p bits = true ↔ p = .even ∧ bits.count true % 2 = 1 ∨ p = .odd ∧ bits.count true % 2 = 0 := by
  cases p <;> simp [parityError, ones]

/-- A break is classified before anything else. -/
theorem classify_break {r : LineRecord} {bits : List Bool} {stop : Bool} (h : stop = false ∧ ∀ b ∈ bits, b = false) :
    classify r bits stop = { value := 0, mark := false, framing := false, parity := false, brk := true, close := none } :=
  if_pos (by simpa [ones_eq_zero] using h)

/-- Any other character is read as it stands. -/
theorem classify_character {r : LineRecord} {bits : List Bool} {stop : Bool} (h : ¬ (stop = false ∧ ∀ b ∈ bits, b = false)) :
    classify r bits stop =
      { value := byteOfBits (bits.take (min 8 r.dataBits.count)), mark := r.dataBits == .nine && bits.getD 8 false,
        framing := !stop, parity := parityError r.parity bits, brk := false, close := none } :=
  if_neg (by simpa [ones_eq_zero] using h)

/-- A data bit of the value, where the line has so many. -/
theorem take_getElem? (bits : List Bool) (d : DataBits) {i : Nat} (hi : i < 8) :
    (bits.take (min 8 d.count)).getD i false = true ↔ i < d.count ∧ bits[i]? = some true := by
  rw [getD_false_iff, List.getElem?_take]
  split <;> simp <;> omega

/-! ### A frame that comes in as it went out -/

theorem dataBitsOf_length (d : DataBits) (value : Byte) (mark : Bool) : (dataBitsOf d value mark).length = d.count := by
  cases d <;> rfl

theorem parityBits_length (p : Parity) (data : List Bool) : (parityBits p data).length = p.count := by
  cases p <;> rfl

/-- The parity bit makes the received bits free of a parity error. -/
theorem parityError_parityBits (p : Parity) (data : List Bool) : parityError p (data ++ parityBits p data) = false := by
  have hmod := Nat.mod_two_eq_zero_or_one (data.count true)
  cases p with
  | off => rfl
  | even | odd => rcases hmod with h | h <;> simp [parityError, parityBits, ones, List.count_append, h, Nat.add_mod]

/-- The received bits of a frame: what stands between its start bit and its stop bits. -/
theorem txFrame_bits (r : LineRecord) (value : Byte) (mark : Bool) :
    ((txFrame r value mark).drop 1).take (r.dataBits.count + r.parity.count) =
      dataBitsOf r.dataBits value mark ++ parityBits r.parity (dataBitsOf r.dataBits value mark) := by
  rw [← dataBitsOf_length r.dataBits value mark, ← parityBits_length r.parity (dataBitsOf r.dataBits value mark),
    ← List.length_append]
  simp only [txFrame, List.cons_append, List.drop_succ_cons, List.drop_zero]
  exact List.take_left

/-- The low bits of a value, as many as the line has data bits, are its first data bits. -/
theorem take_dataBitsOf (d : DataBits) (value : Byte) (mark : Bool) (rest : List Bool) :
    (dataBitsOf d value mark ++ rest).take (min 8 d.count) = (List.range (min 8 d.count)).map value.getLsbD := by
  have first (k : Nat) (more : List Bool) : ((List.range k).map value.getLsbD ++ more).take k = (List.range k).map value.getLsbD :=
    List.take_left' (by simp)
  cases d with
  | seven => exact first 7 rest
  | eight => exact first 8 rest
  | nine =>
    show (((List.range 8).map value.getLsbD ++ [mark]) ++ rest).take 8 = _
    rw [List.append_assoc]
    exact first 8 _

/-- The data bits of a frame, as a byte. -/
theorem byteOfBits_dataBitsOf (d : DataBits) (value : Byte) (mark : Bool) (rest : List Bool) :
    byteOfBits ((dataBitsOf d value mark ++ rest).take (min 8 d.count)) = if d = .seven then value &&& 0x7F#8 else value := by
  refine BitVec.eq_of_getLsbD_eq fun i hi => ?_
  rw [take_dataBitsOf, byteOfBits_bit _ hi, List.getD_eq_getElem?_getD, List.getElem?_map]
  have low : ∀ i : Fin 8, (0x7F#8).getLsbD i.val = decide (i.val < 7) := by decide
  cases d with
  | seven =>
    rw [if_pos rfl, BitVec.getLsbD_and, low ⟨i, hi⟩]
    by_cases h7 : i < 7 <;> simp [DataBits.count, h7]
  | eight | nine => simp [DataBits.count, hi]

/-- The address mark of a frame: the ninth data bit, on a line that has one. -/
theorem mark_dataBitsOf (d : DataBits) (value : Byte) (mark : Bool) (rest : List Bool) :
    (d == .nine && (dataBitsOf d value mark ++ rest).getD 8 false) = (decide (d = .nine) && mark) := by
  cases d <;> rfl

/-- Settles O48: a break or not, then the frame's parts. -/
theorem frameRoundTrip : Obligations.FrameRoundTrip := by
  refine ⟨fun r bits stop => ?_, fun r value mark => ?_⟩
  · intro e
    by_cases h : stop = false ∧ ∀ b ∈ bits, b = false
    · have he : e = _ := classify_break h
      rw [he]
      simpa using h
    · have he : e = _ := classify_character h
      rw [he]
      refine ⟨by simpa using h, rfl, by simp, fun _ => ⟨by simp, parityError_iff _ _, ?_, fun i hi => ?_⟩⟩
      · rw [Bool.and_eq_true, beq_iff_eq, getD_false_iff]
      · rw [byteOfBits_bit _ hi, take_getElem? _ _ hi]
  · intro f bits
    have hdata := dataBitsOf_length r.dataBits value mark
    have hparity := parityBits_length r.parity (dataBitsOf r.dataBits value mark)
    refine ⟨?_, rfl, ?_, ?_⟩
    · simp [f, txFrame, hdata, hparity, bits]
      omega
    · have hstops : f.drop (1 + bits) = List.replicate r.stopBits.count true :=
        List.drop_left' (by simp [hdata, hparity, bits]; omega)
      rw [hstops]
      exact fun b hb => (List.mem_replicate.mp hb).2
    · rw [txFrame_bits, classify_character (fun h => Bool.noConfusion h.1), byteOfBits_dataBitsOf, mark_dataBitsOf,
        parityError_parityBits]
      rfl

end Sys2Proof.Machine

/-! PROOFS of O52 (the filler takes an entry) and O53 (the end of a buffer write). -/

namespace Sys2Proof.Machine

/-! ### The write request of the filler (04 R75) -/

theorem Filler.hasRoom_iff {f : Filler} {m : Member BufferBody} {ms : List (Member BufferBody)} (hl : f.list = m :: ms) :
    f.hasRoom = true ↔ f.assembly.length < 16 ∧ (f.assembly = [] ∨ (m.body.address.toNat + f.fill) % 32 ≠ 0) := by
  rw [Filler.hasRoom, assemblyHasRoom_iff, Filler.headBuffer, hl]

/-- The filler requests its write when 04 R75 lets it. -/
theorem Line.requestBufferWrite_made {l : Line} {m : Member BufferBody} {ms : List (Member BufferBody)}
    (hl : l.filler.list = m :: ms) (ho : l.filler.outstanding = none) (ha : l.filler.assembly ≠ [])
    (hwhen : l.filler.hasRoom = false ∨ l.rx.fifo = [] ∨ l.filler.state = .closing) :
    l.requestBufferWrite = { l with filler := { l.filler with
      assembly := []
      outstanding := some
        { address := m.body.address + BitVec.ofNat 40 (l.filler.fill - l.filler.assembly.length)
          size := l.filler.assembly.length
          bytes := l.filler.assembly } } } := by
  rw [l.requestBufferWrite_spec, if_pos ⟨ho, ha, hwhen⟩]
  simp [assemblyWrite, Filler.headBuffer, hl]

theorem Line.requestBufferWrite_not {l : Line}
    (h : ¬ (l.filler.outstanding = none ∧ l.filler.assembly ≠ [] ∧
      (l.filler.hasRoom = false ∨ l.rx.fifo = [] ∨ l.filler.state = .closing))) : l.requestBufferWrite = l := by
  rw [l.requestBufferWrite_spec, if_neg h]

/-- A write request changes the assembly and the write outstanding alone. -/
theorem Line.requestBufferWrite_rest (l : Line) :
    l.requestBufferWrite = { l with filler := { l.filler with
      assembly := l.requestBufferWrite.filler.assembly, outstanding := l.requestBufferWrite.filler.outstanding } } := by
  rw [l.requestBufferWrite_spec]
  split <;> rfl

/-! ### What an entry does to the head buffer (04 Table 4.3) -/

/-- The reason of a mark, unless the entry is not stored and no character is assigned (04 R73). -/
theorem markReasonUnstored_eq (fill : Nat) (c : Option CloseMark) :
    markReasonUnstored fill c = if c = some .idleGap ∧ fill = 0 then .none else markReason c := by
  match c with
  | none => simp [markReasonUnstored, markReason]
  | some .flush => simp [markReasonUnstored, markReason]
  | some .idleGap => cases fill <;> simp [markReasonUnstored, markReason]

/-- The counts and the assembly after an entry was taken. -/
theorem Filler.afterTake_eq (f : Filler) (slot : Slot) (h : Handling) (e : Staged) :
    f.afterTake slot h e = { f with
      fill := f.fill + h.stored.toNat
      errors := saturate 255 (f.errors + h.error.toNat)
      dropped := saturate 255 (f.dropped + h.dropped.toNat)
      firstMarked := f.firstMarked || h.firstMarked.toNat == 1
      assembly := f.assembly ++ List.replicate h.stored.toNat e.value
      flush := f.flush.map (FlushRecord.afterTake slot) } := by
  have hassembly : (if h.stored = true then f.assembly ++ [e.value] else f.assembly) =
      f.assembly ++ List.replicate h.stored.toNat e.value := by cases h.stored <;> simp
  have hmarked : (h.firstMarked.toNat == 1) = h.firstMarked := by cases h.firstMarked <;> rfl
  rw [Filler.afterTake, hassembly, hmarked]

/-- The line after the filler took the entry at the staging head (03 R52, R59, 04 Table 4.3). -/
theorem Line.dropStagedHead_afterTake (l : Line) {slot : Slot} {h : Handling} {e : Staged} {es : List Staged}
    (hf : l.rx.fifo = e :: es) :
    Line.dropStagedHead { l with filler := l.filler.afterTake slot h e } = { l with
      rts := if (l.record.mode = .stream ∧ l.record.flow = .hardware) ∧ l.rx.held = false ∧ es.length ≤ 2 then true else l.rts
      rx := { l.rx with fifo := es }
      filler := l.filler.afterTake slot h e } := by
  rw [Line.dropStagedHead, Line.rtsAfterTake_eq]
  simp only [hf, List.tail_cons]

/-- The filler takes up the entry at the staging head (04 R68). -/
theorem Line.fillerTake_entry {l : Line} {m : Member BufferBody} {ms : List (Member BufferBody)} {e : Staged} {es : List Staged}
    {h : Handling} (hs : l.filler.state = .filling) (hl : l.filler.list = m :: ms) (hf : l.rx.fifo = e :: es)
    (hroom : l.filler.hasRoom = true) (hh : handling l.record m.body l.filler.fill e = h) :
    l.fillerTake = some
      (if h.close = .none
        then (if h.taken then Line.dropStagedHead { l with filler := l.filler.afterTake m.slot h e } else l).requestBufferWrite
        else (if h.taken then Line.dropStagedHead { l with filler := l.filler.afterTake m.slot h e } else l).closeBuffer
          h.close) := by
  simp [Line.fillerTake, hs, hl, hf, hroom, hh]

theorem Line.fillerTake_none {l : Line} (h : l.filler.state ≠ .filling ∨ l.filler.hasRoom = false) : l.fillerTake = none := by
  unfold Line.fillerTake
  split
  · next hs _ _ =>
    rcases h with h | h
    · exact absurd hs h
    · exact if_neg (by simp [h])
  · rfl

/-- Settles O52: the write request, then the rows of Table 4.3. -/
theorem fillerTakesEntry : Obligations.FillerTakesEntry := by
  refine ⟨fun l m ms hl => ?_, fun s n m ms e es h => ?_⟩
  · intro f room requests
    have hroom : f.hasRoom = false ↔ ¬ room := by rw [← Bool.not_eq_true, Filler.hasRoom_iff hl]
    refine ⟨fun hn => Line.requestBufferWrite_not fun ⟨ho, ha, hwhen⟩ => hn ⟨ho, ha, ?_⟩, fun ⟨ho, ha, hwhen⟩ =>
      Line.requestBufferWrite_made hl ho ha ?_⟩
    · rwa [← hroom]
    · rwa [hroom]
  · intro l f room hardware does byMark byMarkUnstored byCharacter error hl hf
    have hroom : f.hasRoom = true ↔ room := Filler.hasRoom_iff hl
    have hmark : markReason e.close = byMark := by
      show _ = match e.close with | none => CloseReason.none | some .idleGap => .idleGap | some .flush => .flush
      match e.close with
      | none | some .idleGap | some .flush => rfl
    have hunstored : markReasonUnstored f.fill e.close = byMarkUnstored := by
      rw [markReasonUnstored_eq, hmark]
    have hcharacter : storedClose l.record m.body f.fill e = byCharacter := by
      rw [storedClose, hmark]
    refine ⟨fun hs hfree => ?_, fun hnot => exec_onLine_none (f := Line.fillerTake) rfl (Line.fillerTake_none ?_)⟩
    · have handled (stored error dropped marked : Bool) (close : CloseReason) (hh : handling l.record m.body f.fill e =
          { taken := true, stored, error, dropped, firstMarked := marked, close }) :
          does stored.toNat error.toNat dropped.toNat marked.toNat close := by
        have htake := Line.fillerTake_entry hs hl hf (hroom.mpr hfree) hh
        rw [if_pos rfl, Line.dropStagedHead_afterTake l hf, Filler.afterTake_eq] at htake
        refine ⟨fun hclose => ?_, fun hclose => ?_⟩
        · rw [if_pos hclose] at htake
          refine exec_onLine_quiet h rfl htake ?_ ?_ ?_ ?_ ?_ <;> rw [Line.requestBufferWrite_rest]
        · rw [if_neg hclose] at htake
          exact exec_onLine_some rfl htake
      have hbad : (e.framing || e.parity) = true ↔ error := Bool.or_eq_true_iff
      refine ⟨fun hb => handled false false false false _ ?_, fun hb herr hp => handled true true false false _ ?_,
        fun hb herr hp => handled false false true false _ ?_, fun hb herr hp => handled true true false false _ ?_,
        fun hb herr hm hfill => exec_onLine_some rfl ?_, fun hb herr hm => handled true false false e.mark _ ?_⟩
      · simp [handling, hb, hunstored]
      · rw [handling, if_neg (by simp [hb]), if_pos (hbad.mpr herr), hp, hcharacter]
      · rw [handling, if_neg (by simp [hb]), if_pos (hbad.mpr herr), hp, hunstored]
      · rw [handling, if_neg (by simp [hb]), if_pos (hbad.mpr herr), hp]
      · have hh : handling l.record m.body f.fill e =
            { taken := false, stored := false, error := false, dropped := false, firstMarked := false, close := .address } := by
          rw [handling, if_neg (by simp [hb]), if_neg (hbad.not.mpr herr), if_pos]
          simpa [hm] using hfill
        exact Line.fillerTake_entry hs hl hf (hroom.mpr hfree) hh
      · rw [handling, if_neg (by simp [hb]), if_neg (hbad.not.mpr herr), if_neg, hcharacter]
        rcases hm with hm | hm
        · simp [hm]
        · simp [hm]
    · rwa [← Bool.not_eq_true, hroom]

/-! ### The end of a buffer write (04 R75 to R77, R80) -/

theorem exec_rxBufferWriteEnd_ok {s : State} {n : LineNo} {t : Transfer} (h : s.inTransfer t) (ht : t.kind = .rxBufferWrite n) :
    exec (.rxBufferWriteEnd n .ok) s =
      .next (s.transferOver.updateLine n ((s.line n).bufferWritten t.extent.size)) := by
  dsimp only [exec, execRxBufferWriteEnd]
  rw [State.endTransfer_acts s _ _ t h.1 (by simp [ht]) h.2]
  rfl

theorem exec_rxBufferWriteEnd_busError {s : State} {n : LineNo} {t : Transfer} (h : s.inTransfer t)
    (ht : t.kind = .rxBufferWrite n) :
    exec (.rxBufferWriteEnd n .busError) s =
      .next (s.transferOver.updateLine n ((s.line n).bufferWriteFailed t.extent.size)) := by
  dsimp only [exec, execRxBufferWriteEnd]
  rw [State.endTransfer_acts s _ _ t h.1 (by simp [ht]) h.2]
  rfl

/-- The line whose buffer write of `size` bytes has ended OK. -/
def Line.writeCounted (l : Line) (size : Nat) : Line :=
  { l with filler := { l.filler with outstanding := none, written := l.filler.written + size } }

/-- An open buffer, or one with more to write, goes on. -/
theorem Line.bufferWritten_goesOn {l : Line} (size : Nat)
    (h : l.filler.state = .filling ∨ l.filler.state = .closing ∧ l.filler.assembly ≠ []) :
    l.bufferWritten size = (l.writeCounted size).requestBufferWrite := by
  refine Line.composeBuffer_waits ?_
  rcases h with hs | ⟨hs, ha⟩
  · refine .inl ?_
    rw [Line.requestBufferWrite_rest]
    exact fun hc => FillerState.noConfusion (hs.symm.trans hc)
  · rw [Line.requestBufferWrite_spec, if_pos]
    · exact .inr (.inr (by simp))
    · exact ⟨rfl, ha, .inr (.inr hs)⟩

/-- A closing buffer with nothing left to write completes. -/
theorem Line.bufferWritten_done {l : Line} (size : Nat) (hs : l.filler.state = .closing) (ha : l.filler.assembly = []) :
    l.bufferWritten size = { l.writeCounted size with filler := { (l.writeCounted size).filler with
      state := .offering
      list := completedHead
        { status := l.filler.endStatus.getD .ok, count := BitVec.ofNat 16 (l.filler.written + size),
          detail := bufferDetail l.filler.reason l.filler.firstMarked l.filler.errors l.filler.dropped } l.filler.list } } := by
  show (l.writeCounted size).requestBufferWrite.composeBuffer = _
  rw [Line.requestBufferWrite_nothing (l := l.writeCounted size) (.inr ha)]
  exact Line.composeBuffer_done (l := l.writeCounted size) hs ha rfl

/-- A buffer whose write failed completes with what had been written. -/
theorem Line.bufferWriteFailed_eq {l : Line} (size : Nat) (hs : l.filler.state = .filling ∨ l.filler.state = .closing) :
    l.bufferWriteFailed size = { l with
      rx := { l.rx with lost := saturate 65535 (l.rx.lost + (size + l.filler.assembly.length)) }
      filler := { l.filler with
        outstanding := none
        assembly := []
        state := .offering
        list := completedHead
          { status := l.filler.endStatus.getD .busError, count := BitVec.ofNat 16 l.filler.written,
            detail := bufferDetail l.filler.reason l.filler.firstMarked l.filler.errors l.filler.dropped } l.filler.list } } := by
  rw [Line.bufferWriteFailed]
  exact (if_pos hs).trans (by simp [Line.offerBuffer, Line.addLost, finishHead_eq])

/-- Settles O53: by how the write ends, the filler's state, and what is assembled. -/
theorem bufferWriteEnds : Obligations.BufferWriteEnds := by
  intro s n t m ms htransfer hkind h l f hmode hl hactive hnot written result
  have hquiet : s.transferOver.noNewOffers n := h
  have hok := exec_rxBufferWriteEnd_ok htransfer hkind
  have hbus := exec_rxBufferWriteEnd_busError htransfer hkind
  have goesOn (hs : f.state = .filling ∨ f.state = .closing ∧ f.assembly ≠ []) :
      exec (.rxBufferWriteEnd n .ok) s =
        .next (s.transferOver.setLine n (l.writeCounted t.extent.size).requestBufferWrite) := by
    rw [hok, Line.bufferWritten_goesOn _ hs]
    refine congrArg _ (State.updateLine_quiet_stream hquiet ?_ ?_ ?_ ?_ ?_) <;> rw [Line.requestBufferWrite_rest] <;> rfl
  refine ⟨goesOn, ?_, fun hs ha => ⟨_, hok, ?_⟩, fun hs => ⟨_, hbus, ?_⟩⟩
  · intro room becomes
    have hroom : (l.writeCounted t.extent.size).filler.hasRoom = true ↔ room := Filler.hasRoom_iff (f := f) hl
    refine ⟨fun hs ha => (goesOn (.inl hs)).trans ?_, fun ha hs => (goesOn ?_).trans ?_⟩
    · rw [Line.requestBufferWrite_not]
      · rfl
      · rintro ⟨-, hassembled, hwhen⟩
        rcases ha with ha | ⟨hfree, hstaged⟩
        · exact hassembled ha
        · rcases hwhen with hfull | hempty | hclosing
          · exact Bool.noConfusion (hfull.symm.trans (hroom.mpr hfree))
          · exact hstaged hempty
          · exact FillerState.noConfusion (hs.symm.trans hclosing)
    · exact hs.imp And.left fun hc => ⟨hc, ha⟩
    · rw [Line.requestBufferWrite_made (l := l.writeCounted t.extent.size) (m := m) (ms := ms) hl rfl ha]
      · rfl
      · rcases hs with ⟨hs, hfull | hempty⟩ | hs
        · exact .inl (by rw [← Bool.not_eq_true, hroom]; exact hfull)
        · exact .inr (.inl hempty)
        · exact .inr (.inr hs)
  · rw [Line.bufferWritten_done _ hs ha]
    refine State.updateLine_bufferDone (s := s.transferOver) (ms := ms) hquiet ?_ ?_ ?_ ?_ hnot
    exacts [hmode, rfl, rfl, congrArg (completedHead _) hl]
  · rw [Line.bufferWriteFailed_eq _ hs]
    refine ⟨?_, ?_⟩
    · refine State.updateLine_bufferDone (s := s.transferOver) (ms := ms) hquiet ?_ ?_ ?_ ?_ hnot
      exacts [hmode, rfl, rfl, congrArg (completedHead _) hl]
    · exact (State.updateLine_advanced _ _ _).lost

end Sys2Proof.Machine

/-! PROOFS of O54 (a SEND is taken), O55 (characters go out) and O56 (how a SEND ends). -/

namespace Sys2Proof.Machine

/-! ### Data reads (05 R92) -/

/-- A read request changes the read outstanding and the offset alone. -/
theorem Transmitter.requestRead_rest (t : Transmitter) :
    t.requestRead = { t with outstanding := t.requestRead.outstanding, readOffset := t.requestRead.readOffset } := by
  unfold Transmitter.requestRead
  split
  · rfl
  · dsimp only
    split <;> rfl

theorem Transmitter.requestRead_of_none (t : Transmitter) (hj : t.job = none) : t.requestRead = t := by
  unfold Transmitter.requestRead
  rw [hj]

/-- When a read is requested, and how much it asks for. -/
theorem Transmitter.requestRead_of_job {t : Transmitter} {j : TxJob} (hj : t.job = some j) :
    t.requestRead =
      if t.endCause = none ∧ t.busError = false ∧ t.outstanding = none ∧ t.readOffset < j.send.length ∧
          8 ≤ 16 - t.staging.length then
        { t with
          outstanding := some
            { address := BitVec.ofNat 40 (j.send.address.toNat + t.readOffset)
              size := min (16 - t.staging.length)
                (min (j.send.length - t.readOffset) (32 - (j.send.address.toNat + t.readOffset) % 32))
              bytes := [] }
          readOffset := t.readOffset + min (16 - t.staging.length)
            (min (j.send.length - t.readOffset) (32 - (j.send.address.toNat + t.readOffset) % 32)) }
      else t := by
  unfold Transmitter.requestRead
  rw [hj]
  rfl

/-- What the transmitter does meanwhile is no matter of its reads. -/
theorem Transmitter.requestRead_with (t : Transmitter) (state : TxState) (txd : TxdDrive) :
    { t.requestRead with state, txd } = Transmitter.requestRead { t with state, txd } := by
  rcases Option.eq_none_or_eq_some t.job with hj | ⟨j, hj⟩
  · rw [t.requestRead_of_none hj, Transmitter.requestRead_of_none (t := { t with state, txd }) hj]
  · rw [Transmitter.requestRead_of_job hj, Transmitter.requestRead_of_job (t := { t with state, txd }) hj]
    dsimp only
    split <;> rfl

/-! ### What the offers of a moment leave of the transmitter -/

/-- The completions of line `l` that entered the backlog left its character work alone. -/
structure Line.CharactersStill (l k : Line) : Prop where
  record : k.record = l.record
  tx : k.tx = { l.tx with list := k.tx.list }
  de : l.isPoll = true → k.de = l.de

theorem Line.CharactersStill.refl (l : Line) : l.CharactersStill l := ⟨rfl, rfl, fun _ => rfl⟩

theorem Line.CharactersStill.trans {l k m : Line} (h : l.CharactersStill k) (j : k.CharactersStill m) :
    l.CharactersStill m where
  record := j.record.trans h.record
  tx := by
    rw [j.tx, h.tx]
  de hp := (j.de (by rw [Line.isPoll, h.record]; exact hp)).trans (h.de hp)

theorem Line.movedOn_charactersStill (l : Line) (i : Slot) (r : Result) (p : Producer) :
    l.CharactersStill (l.movedOn i r p) := by
  have record := (l.movedOn_advanced i r p).record
  cases p with
  | dispatcher | fence | event => exact .refl l
  | control n => exact ⟨record, rfl, fun _ => rfl⟩
  | transmitter n =>
    obtain ⟨control, progress, h⟩ := Line.recordEntered_eq { l with tx := { l.tx with list := l.tx.list.tail } } i
    have hmoved : l.movedOn i r (.transmitter n) = _ := h
    exact ⟨record, by rw [hmoved], fun _ => by rw [hmoved]⟩
  | data n =>
    cases hp : l.isPoll with
    | true =>
      obtain ⟨control, progress, h⟩ := Line.recordEntered_eq
        { l with poll := { l.poll with list := l.poll.list.tail, attempt := .none } } i
      have hmoved : l.movedOn i r (.data n) = _ := (if_pos hp).trans h
      exact ⟨record, by rw [hmoved], fun _ => by rw [hmoved]⟩
    | false =>
      have hmoved : l.movedOn i r (.data n) = l.bufferEntered i r := if_neg (by simp [hp])
      refine ⟨record, ?_, fun h => Bool.noConfusion (hp.symm.trans h)⟩
      rw [hmoved, l.bufferEntered_tx i r]

/-- The offers that follow a line's step leave its character work alone. -/
theorem State.updateLine_charactersStill (s : State) (n : LineNo) (k : Line) :
    k.CharactersStill ((s.updateLine n k).line n) := by
  refine State.settle_induction (lineProducers n) (P := fun t => k.CharactersStill (t.line n)) (fun _ _ h => h) ?_
    (fun _ _ h _ _ _ => h) settleBound ?_
  · intro t p h hmem hoff _ _
    obtain ⟨⟨i, r⟩, hir⟩ := Option.isSome_iff_exists.mp hoff
    rw [State.enterBacklog_line_same hir (mem_lineProducers.mp hmem)]
    exact h.trans (Line.movedOn_charactersStill _ i r p)
  · rw [State.line_setLine_same]
    exact .refl k

/-! ### The start of a character (05 R91) -/

/-- At the start of a character that is no request's station address, by the staging, CTS and the bus error. -/
theorem Line.startCharacter_eq {l : Line} {j : TxJob} (hj : l.tx.job = some j) (h : j.station = none ∨ l.tx.sent ≠ 0) :
    l.startCharacter =
      if l.tx.staging = [] then
        if l.tx.busError = true then l.stopCharacters .busError l.tx.state
        else { l with tx := { l.tx with state := .load, txd := .mark, gapTimer := none } }
      else if l.hardwareFlow = true ∧ l.tx.cts = false then
        { l with tx := { l.tx with state := .ctsWait, txd := .mark, gapTimer := none,
                                   ctsTimer := if j.send.ctsLimit = 0 then none else some j.send.ctsLimit } }
      else l.sendStaged j := by
  unfold Line.startCharacter
  rw [hj]
  dsimp only
  split
  · next a hstation hsent => rcases h with h | h <;> simp_all
  · refine if_congr (by simp) rfl (if_congr ?_ rfl rfl)
    simp

/-- The byte at the head of the staging goes out (05 R94). -/
theorem Line.sendStaged_cons {l : Line} (j : TxJob) {c : Byte} {cs : List Byte} (h : l.tx.staging = c :: cs) :
    l.sendStaged j = { l with tx := Transmitter.requestRead { l.tx with
      state := .send, txd := .frame (txFrame l.record c (j.send.markFirst && l.tx.sent == 0)), staging := cs
      ctsTimer := none, gapTimer := none } } := by
  unfold Line.sendStaged
  rw [h]
  rfl

/-! ### The end of character work -/

/-- The transmitter as its character work stops, with the end of its record decided (05 R99). -/
def Transmitter.halted (t : Transmitter) (st : Status) (ts : TxState) : Transmitter :=
  { t with state := .idle, staging := [], ctsTimer := none, gapTimer := none, endCause := some (st, ts), txd := .mark }

/-- On a STREAM line the completion is composed, unless a read is outstanding (05 R99). -/
theorem Line.stopCharacters_stream {l : Line} (st : Status) (ts : TxState) (hp : l.isPoll = false) (hj : l.tx.job ≠ none)
    (ho : l.tx.outstanding = none) :
    l.stopCharacters st ts = { l with tx := { (l.tx.halted st ts).jobOver with
      list := completedHead { status := st, count := BitVec.ofNat 16 l.tx.sent,
                              detail := sendDetail l.tx.bytesRead l.tx.breakDone ts } l.tx.list } } := by
  rw [Line.stopCharacters]
  refine (if_neg (by simpa [Line.isPoll] using hp)).trans ?_
  simp [Line.composeSend, ho, hj, Transmitter.sendResult, finishHead_eq, Transmitter.halted]

theorem Line.stopCharacters_reading {l : Line} (st : Status) (ts : TxState) (hp : l.isPoll = false)
    (ho : l.tx.outstanding ≠ none) : l.stopCharacters st ts = { l with tx := l.tx.halted st ts } := by
  rw [Line.stopCharacters]
  refine (if_neg (by simpa [Line.isPoll] using hp)).trans ?_
  simp [Line.composeSend, ho, Transmitter.halted]

/-- DE is released: the receiver hunts on an ENABLED line, and the quiet timer restarts. -/
theorem Line.releaseDriver_eq (l : Line) :
    l.releaseDriver = { l with
      de := false
      rx := if l.state = .enabled then { l.rx with state := .hunt, read := [], sample := 0 } else l.rx
      poll := { l.poll with quiet := decide (l.state = .enabled) } } := by
  unfold Line.releaseDriver Line.rxHunt
  by_cases h : l.state = .enabled <;> simp [h, beq_eq_decide]

/-- The current record's completion is composed once nothing of it is left at the port (06 R113, R121, R123). -/
theorem Line.composePoll_done {l : Line} {st : Status} (he : l.poll.endStatus = some st) (ha : l.poll.attempt = .settle)
    (hs : l.poll.assembly = []) (ho : l.poll.outstanding = none) (hr : l.tx.outstanding = none) :
    l.composePoll = { l with
      poll := { l.poll with list := completedHead (l.pollResult st) l.poll.list, endStatus := none, stopFlag := false }
      tx := l.tx.jobOver } := by
  simp [Line.composePoll, he, ha, hs, ho, hr, finishHead_eq]

theorem Line.composePoll_waits {l : Line}
    (h : l.poll.endStatus = none ∨ l.poll.attempt ≠ .settle ∨ l.poll.assembly ≠ [] ∨ l.poll.outstanding ≠ none ∨
      l.tx.outstanding ≠ none) : l.composePoll = l := by
  unfold Line.composePoll
  split
  · next st he =>
    refine if_neg fun ⟨ha, hs, ho, hr⟩ => ?_
    rcases h with h | h | h | h | h
    · exact absurd (h.symm.trans he) nofun
    · exact h ha
    · exact h hs
    · exact h ho
    · exact h hr
  · rfl

theorem Line.pollResult_send {l : Line} {m : Member PollWork} {ms : List (Member PollWork)} (st : Status)
    (hl : l.poll.list = m :: ms) (hb : ∃ b, m.body = .send b) : l.pollResult st = l.tx.sendResult st := by
  obtain ⟨b, hb⟩ := hb
  simp [Line.pollResult, PollEngine.headWork, hl, hb]

theorem Line.pollResult_poll {l : Line} {m : Member PollWork} {ms : List (Member PollWork)} (st : Status)
    (hl : l.poll.list = m :: ms) (hb : ∃ b, m.body = .poll b) :
    l.pollResult st =
      { status := st, count := BitVec.ofNat 16 l.poll.written,
        detail := pollDetail (l.poll.reported st).1 l.poll.attemptNumber (l.poll.reported st).2 } := by
  obtain ⟨b, hb⟩ := hb
  simp [Line.pollResult, PollEngine.headWork, hl, hb]

/-- A POLL line whose character work has stopped, before its engine is told (06 R111, R113, R123). -/
def Line.pollHalted (l : Line) (st : Status) (ts : TxState) : Line :=
  { l with
    de := false
    rx := if l.state = .enabled then { l.rx with state := .hunt, read := [], sample := 0 } else l.rx
    tx := l.tx.halted st ts
    poll := { l.poll with quiet := decide (l.state = .enabled), attempt := .settle,
                          endStatus := some (l.poll.endStatus.getD st) } }

/-- The result of a SEND whose character work ends in transmitter state `ts`. -/
theorem Line.pollHalted_sendResult {l : Line} {m : Member PollWork} {ms : List (Member PollWork)} (st st' : Status) (ts : TxState)
    (hl : l.poll.list = m :: ms) (hb : ∃ b, m.body = .send b) :
    (l.pollHalted st ts).pollResult st' =
      { status := st', count := BitVec.ofNat 16 l.tx.sent, detail := sendDetail l.tx.bytesRead l.tx.breakDone ts } :=
  Line.pollResult_send (l := l.pollHalted st ts) st' hl hb

/-- The result of a POLL whose request ends. -/
theorem Line.pollHalted_pollResult {l : Line} {m : Member PollWork} {ms : List (Member PollWork)} (st st' : Status) (ts : TxState)
    (hl : l.poll.list = m :: ms) (hb : ∃ b, m.body = .poll b) :
    (l.pollHalted st ts).pollResult st' =
      { status := st', count := BitVec.ofNat 16 l.poll.written,
        detail := pollDetail (l.poll.reported st').1 l.poll.attemptNumber (l.poll.reported st').2 } := by
  rw [Line.pollResult_poll (l := l.pollHalted st ts) st' hl hb]
  cases st' <;> rfl

theorem Line.stopCharacters_poll {l : Line} (st : Status) (ts : TxState) (hp : l.isPoll = true) :
    l.stopCharacters st ts = (l.pollHalted st ts).composePoll := by
  rw [Line.stopCharacters]
  refine (if_pos (by simpa [Line.isPoll] using hp)).trans ?_
  simp only [Line.pollWorkEnded, Line.releaseDriver_eq, PollEngine.decideEnd]
  rfl

section Reports

variable {s : State} {n : LineNo} {k : Line}

/-- The completion of the current SEND of a STREAM line is composed, and reported. -/
theorem State.updateLine_sendDone (h : s.noNewOffers n) (hr : k.record = (s.line n).record)
    (hc : k.control = (s.line n).control) (hf : k.filler.list = (s.line n).filler.list)
    (hp : k.poll.list = (s.line n).poll.list) {m : Member SendBody} {ms : List (Member SendBody)} {r : Result}
    (ht : k.tx.list = completedHead r (m :: ms)) (hnot : .transmitter n ∉ s.backlog.waiting) :
    s.Reports (s.updateLine n k) (.transmitter n) m.slot r := by
  have hoff : (s.setLine n k).onOffer (.transmitter n) = some (m.slot, r) := by
    simp [State.onOffer, ht, completedHead, headResult]
  have hdata : (s.setLine n k).onOffer (.data n) = s.onOffer (.data n) := by
    simp [State.onOffer, Line.isPoll, hr, hf, hp]
  exact s.updateLine_completes n k _ _ _ (State.newOffers_transmitter h (by rw [hc]) hdata hoff hnot) hoff

/-- The completion of the current record of a POLL line is composed, and reported. -/
theorem State.updateLine_pollDone (h : s.noNewOffers n) (hmode : k.record.mode = .poll)
    (hc : k.control = (s.line n).control) (ht : k.tx.list = (s.line n).tx.list) {m : Member PollWork}
    {ms : List (Member PollWork)} {r : Result} (hp : k.poll.list = completedHead r (m :: ms))
    (hnot : .data n ∉ s.backlog.waiting) : s.Reports (s.updateLine n k) (.data n) m.slot r := by
  have hoff : (s.setLine n k).onOffer (.data n) = some (m.slot, r) := by
    simp [State.onOffer, Line.isPoll_of_poll hmode, hp, completedHead, headResult]
  exact s.updateLine_completes n k _ _ _ (State.newOffers_data h (by rw [hc]) (by rw [ht]) hoff hnot) hoff

end Reports

/-! ### A SEND is taken (05 R88, R90) -/

theorem headResult_of_listed {β : Type} {m : Member β} {ms : List (Member β)} (h : m.phase = .listed) :
    headResult (m :: ms) = none := by
  obtain ⟨slot, phase, body⟩ := m
  cases h
  rfl

/-- A job begins: its progress is zero, and its first read is requested. -/
theorem Line.beginJob_eq (l : Line) (j : TxJob) :
    l.beginJob j = { l with tx := Transmitter.requestRead { l.tx with
      job := some j
      state := if j.send.breakBefore = 0 then .load else .brk
      txd := if j.send.breakBefore = 0 then .mark else .breakThenMark (j.send.breakBefore * 16 * l.record.frameLength)
      readOffset := 0, sent := 0, bytesRead := 0, breakDone := false, staging := [], outstanding := none
      busError := false, endCause := none, ctsTimer := none, gapTimer := none } } := by
  unfold Line.beginJob
  by_cases h : j.send.breakBefore = 0
  · rw [if_pos h, if_pos h, if_pos h]
    exact congrArg (fun x : Transmitter => { l with tx := x }) (Transmitter.requestRead_with _ _ _)
  · rw [if_neg h, if_neg h, if_neg h]
    exact congrArg (fun x : Transmitter => { l with tx := x }) (Transmitter.requestRead_with _ _ _)

/-- A read crosses no 32-byte boundary, and takes as much as it may. -/
theorem readSize_fits {offset size free unread : Nat} (hsize : size = min free (min unread (32 - offset % 32))) (hfree : 1 ≤ free)
    (hunread : 1 ≤ unread) :
    1 ≤ size ∧ size ≤ free ∧ size ≤ unread ∧ (offset + size - 1) / 32 = offset / 32 ∧
    (size = free ∨ size = unread ∨ (offset + size) % 32 = 0) := by
  omega

/-- Settles O54: the record taken, then the size of a read. -/
theorem sendTaken : Obligations.SendTaken := by
  refine ⟨fun s n m ms h => ?_, fun t j hj hstaging => ?_⟩
  · intro l hl may none_
    have takes : l.takeSend = if !l.isPoll ∧ l.tx.state = .idle ∧ l.tx.job = none ∧ m.phase = .listed then
        some (Line.beginJob { l with tx := { l.tx with list := activateHead l.tx.list } } { send := m.body, station := none })
        else none := by
      unfold Line.takeSend
      rw [hl]
    have hmay : (!l.isPoll ∧ l.tx.state = .idle ∧ l.tx.job = none ∧ m.phase = .listed) ↔ may := by
      have hmode : (!l.isPoll) = true ↔ l.record.mode = .stream := by
        cases hm : l.record.mode <;> simp [Line.isPoll, hm]
      rw [hmode]
    refine ⟨fun hyes => ?_, fun hn => exec_onLine_none (f := Line.takeSend) rfl (takes.trans (if_neg (hmay.not.mpr hn)))⟩
    have htake := takes.trans (if_pos (hmay.mpr hyes))
    rw [Line.beginJob_eq] at htake
    have hhead : activateHead l.tx.list = { m with phase := .active } :: ms := by
      rw [hl, activateHead, if_pos hyes.2.2.2]
    rw [hhead] at htake
    refine (exec_onLine_some (f := Line.takeSend) rfl htake).trans ?_
    refine congrArg _ (s.updateLine_quiet n _ h ?_ ?_ ?_ ?_ ?_)
    · rfl
    · rfl
    · rw [Transmitter.requestRead_rest, hl, headResult_of_listed hyes.2.2.2]
      rfl
    · rfl
    · rfl
  · intro offset reads
    have hreads : (t.endCause = none ∧ t.busError = false ∧ t.outstanding = none ∧ t.readOffset < j.send.length ∧
        8 ≤ 16 - t.staging.length) ↔ reads := by
      rw [show 8 ≤ 16 - t.staging.length ↔ t.staging.length + 8 ≤ 16 by omega]
    rw [Transmitter.requestRead_of_job hj]
    refine ⟨fun hn => if_neg (hreads.not.mpr hn), fun hy => ⟨_, if_pos (hreads.mpr hy), ?_⟩⟩
    obtain ⟨-, -, -, hleft, hfree⟩ := hy
    obtain ⟨hpos, hsize, hlength, hboundary, hmost⟩ := readSize_fits (offset := offset) rfl (show 1 ≤ 16 - t.staging.length by omega)
      (show 1 ≤ j.send.length - t.readOffset by omega)
    exact ⟨hpos, by omega, by omega, hboundary, hmost.imp (by omega) (Or.imp_left (by omega))⟩

/-! ### Characters go out (05 R91, R93, R94, R97, R98) -/

/-- The current record of a POLL line, its writes done, ends with the character work (06 R113). -/
theorem Line.stopCharacters_pollDone {l : Line} (st : Status) (ts : TxState) (hp : l.isPoll = true)
    (ha : l.poll.assembly = []) (ho : l.poll.outstanding = none) (hr : l.tx.outstanding = none) :
    l.stopCharacters st ts = { l.pollHalted st ts with
      poll := { (l.pollHalted st ts).poll with
        list := completedHead ((l.pollHalted st ts).pollResult (l.poll.endStatus.getD st)) l.poll.list
        endStatus := none
        stopFlag := false }
      tx := (l.tx.halted st ts).jobOver } := by
  rw [Line.stopCharacters_poll st ts hp]
  exact Line.composePoll_done (l := l.pollHalted st ts) rfl rfl ha ho hr

/-- What the offers that follow leave of a POLL line whose driver is released. -/
theorem State.updateLine_released (s : State) (n : LineNo) {k : Line} (hp : k.isPoll = true) (hde : k.de = false)
    (hs : k.tx.state = .idle) (ht : k.tx.txd = .mark) :
    ((s.updateLine n k).line n).de = false ∧ ((s.updateLine n k).line n).tx.state = .idle ∧
    ((s.updateLine n k).line n).tx.txd = .mark := by
  have still := s.updateLine_charactersStill n k
  refine ⟨(still.de hp).trans hde, ?_, ?_⟩
  · rw [still.tx]
    exact hs
  · rw [still.tx]
    exact ht

/-- The character work of a POLL line ends the current record: DE is released, the receiver hunts, and the completion is
reported (06 R111, R113, R123). -/
theorem State.updateLine_workEnded {s : State} {n : LineNo} (h : s.noNewOffers n) {l : Line} (st : Status) (ts : TxState)
    (hmode : l.record.mode = .poll) (hc : l.control = (s.line n).control) (ht : l.tx.list = (s.line n).tx.list)
    {m : Member PollWork} {ms : List (Member PollWork)} (hl : l.poll.list = m :: ms) (ha : l.poll.assembly = [])
    (ho : l.poll.outstanding = none) (hr : l.tx.outstanding = none) (hnot : .data n ∉ s.backlog.waiting) :
    let u := s.updateLine n (l.stopCharacters st ts)
    ((u.line n).de = false ∧ (u.line n).tx.state = .idle ∧ (u.line n).tx.txd = .mark ∧
      (l.state = .enabled → (u.line n).rx.state = .hunt)) ∧
    s.Reports u (.data n) m.slot ((l.pollHalted st ts).pollResult (l.poll.endStatus.getD st)) := by
  intro u
  have hp := Line.isPoll_of_poll hmode
  have hstop := Line.stopCharacters_pollDone st ts hp ha ho hr
  refine ⟨?_, ?_⟩
  · obtain ⟨hde, hidle, hmark⟩ := s.updateLine_released n (k := l.stopCharacters st ts)
      (by rw [hstop]; exact hp) (by rw [hstop]; rfl) (by rw [hstop]; rfl) (by rw [hstop]; rfl)
    refine ⟨hde, hidle, hmark, fun henabled => ?_⟩
    rw [(s.updateLine_advanced n _).rxState, hstop]
    exact congrArg Receiver.state (if_pos henabled)
  · refine State.updateLine_pollDone (ms := ms) h ?_ ?_ ?_ ?_ hnot
    · rw [hstop]; exact hmode
    · rw [hstop]; exact hc
    · rw [hstop]; exact ht
    · rw [hstop, ← hl]

/-- A character has been sent, and the record's end is not decided: what comes next (05 R94, R99). -/
theorem Line.characterSent_eq {l : Line} {j : TxJob} (cts : Bool) (hs : l.tx.state = .send) (hj : l.tx.job = some j)
    (he : l.tx.endCause = none) :
    l.characterSent cts = some
      (if j.characters ≤ l.tx.sent + 1 then Line.lastCharacterSent { l with tx := { l.tx with sent := l.tx.sent + 1, cts } } j
       else if j.send.gap = 0 then Line.startCharacter { l with tx := { l.tx with sent := l.tx.sent + 1, cts } }
       else { l with tx := { l.tx with
         sent := l.tx.sent + 1, cts, state := .gap, txd := .mark, gapTimer := some (j.send.gap * 16) } }) := by
  unfold Line.characterSent
  rw [hs, hj]
  simp only [he]
  rfl

theorem Line.characterSent_decided {l : Line} {j : TxJob} (cts : Bool) {st : Status} {ts : TxState} (hs : l.tx.state = .send)
    (hj : l.tx.job = some j) (he : l.tx.endCause = some (st, ts)) :
    l.characterSent cts = some
      (Line.stopCharacters { l with tx := { l.tx with sent := l.tx.sent + 1, cts } } st ts) := by
  unfold Line.characterSent
  rw [hs, hj]
  simp only [he]
  rfl

/-- Settles O55: the start of a character, after whichever step it comes. -/
theorem charactersGoOut : Obligations.CharactersGoOut := by
  intro s n j h l hj hardware becomes starts
  have starts_of {i : Instr} {f : Line → Option Line} {x : Transmitter} (hexec : exec i s = onLine n f s)
      (hf : f l = some (Line.startCharacter { l with tx := x })) (hjob : x.job = some j)
      (hstation : j.station = none ∨ x.sent ≠ 0) (hlist : x.list = l.tx.list) : starts i x := by
    have hstart := Line.startCharacter_eq (l := { l with tx := x }) hjob hstation
    have quiet {k : Transmitter} (hk : Line.startCharacter { l with tx := x } = { l with tx := k })
        (hkept : k.list = x.list) : becomes i k :=
      exec_onLine_quiet h hexec (hf.trans (congrArg some hk)) rfl rfl (hkept.trans hlist) rfl rfl
    have hhardware : Line.hardwareFlow { l with tx := x } = true ↔ hardware := Line.hardwareFlow_iff _
    refine ⟨fun c cs hstaged hgo => quiet ?_ ?_, fun hstaged hhard hcts => quiet ?_ rfl, fun hempty hok => quiet ?_ rfl,
      fun m ms hl hempty hbus hmode hread hnot => ?_,
      fun m ms hl hactive hsend hnone hempty hbus hmode hread hend hassembly hwrite hnot => ?_⟩
    · have hgoes : ¬ (Line.hardwareFlow { l with tx := x } = true ∧ x.cts = false) := by
        rintro ⟨hflow, hcts⟩
        rcases hgo with hgo | hgo
        · exact hgo (hhardware.mp hflow)
        · exact Bool.noConfusion (hcts.symm.trans hgo)
      rw [hstart, if_neg (by simp [hstaged]), if_neg hgoes]
      exact Line.sendStaged_cons (l := { l with tx := x }) j hstaged
    · rw [Transmitter.requestRead_rest]
    · rw [hstart, if_neg hstaged, if_pos ⟨hhardware.mpr hhard, hcts⟩]
    · rw [hstart, if_pos hempty, if_neg (by simp [hok])]
    · have hstop := Line.stopCharacters_stream (l := { l with tx := x }) .busError x.state (Line.isPoll_of_stream hmode)
        (by simp [hjob]) hread
      rw [hstart, if_pos hempty, if_pos hbus, hstop] at hf
      refine ⟨_, exec_onLine_some hexec hf, ?_⟩
      refine State.updateLine_sendDone (ms := ms) h ?_ ?_ ?_ ?_ ?_ hnot
      exacts [rfl, rfl, rfl, rfl, congrArg (completedHead _) hl]
    · rw [hstart, if_pos hempty, if_pos hbus] at hf
      obtain ⟨⟨hde, hidle, hmark, hhunt⟩, hreports⟩ := State.updateLine_workEnded (l := { l with tx := x }) h .busError x.state
        hmode rfl hlist hl hassembly hwrite hread hnot
      refine ⟨_, exec_onLine_some hexec hf, hde, hidle, hmark, hhunt, ?_⟩
      rw [hend, Line.pollHalted_sendResult (l := { l with tx := x }) _ _ _ hl hsend] at hreports
      exact hreports
  refine ⟨fun hs hnone cts => ?_, fun hs hnone cts => ?_, fun hs hnone => ?_,
    fun hs he hmore cts => ⟨fun hgap => ?_, fun hgap => ?_⟩⟩
  · exact starts_of (f := Line.breakEnd cts) rfl (if_pos hs) hj (.inl hnone) rfl
  · exact starts_of (f := Line.gapEnd cts) rfl (if_pos hs) hj (.inl hnone) rfl
  · exact starts_of (f := Line.ctsAsserted) rfl (if_pos hs) hj (.inl hnone) rfl
  · have hsent := Line.characterSent_eq cts hs hj he
    rw [if_neg (by simpa [TxJob.characters] using hmore), if_pos hgap] at hsent
    exact starts_of (f := Line.characterSent cts) rfl hsent hj (.inr (Nat.succ_ne_zero _)) rfl
  · have hsent := Line.characterSent_eq cts hs hj he
    rw [if_neg (by simpa [TxJob.characters] using hmore), if_neg hgap] at hsent
    exact exec_onLine_quiet (f := Line.characterSent cts) h rfl hsent rfl rfl rfl rfl rfl

/-! ### How a SEND of a STREAM line ends (05 R98, R99, R101) -/

/-- Settles O56: the end of the character work, with or without a read outstanding. -/
theorem sendEnds : Obligations.SendEnds := by
  intro s n j m ms h l hmode hj hstation hl hactive hnot ends
  have hstream := Line.isPoll_of_stream hmode
  have ends_of {i : Instr} {f : Line → Option Line} {x : Transmitter} {st : Status} {ts : TxState}
      (hexec : exec i s = onLine n f s) (hf : f l = some (Line.stopCharacters { l with tx := x } st ts))
      (hjob : x.job = some j) (hlist : x.list = l.tx.list) : ends i x st ts := by
    refine ⟨fun hread => ?_, fun hread => ?_⟩
    · have hstop := Line.stopCharacters_stream (l := { l with tx := x }) st ts hstream (by simp [hjob]) hread
      rw [hstop] at hf
      have still := s.updateLine_charactersStill n { l with tx := { (x.halted st ts).jobOver with
        list := completedHead { status := st, count := BitVec.ofNat 16 x.sent,
                                detail := sendDetail x.bytesRead x.breakDone ts } x.list } }
      refine ⟨_, exec_onLine_some hexec hf, ?_, ?_, ?_, ?_, ?_⟩
      · rw [still.tx]; rfl
      · rw [still.tx]; rfl
      · rw [still.tx]; rfl
      · rw [still.tx]; rfl
      · refine State.updateLine_sendDone (ms := ms) h ?_ ?_ ?_ ?_ ?_ hnot
        exacts [rfl, rfl, rfl, rfl, congrArg (completedHead _) (hlist.trans hl)]
    · have hstop := Line.stopCharacters_reading (l := { l with tx := x }) st ts hstream hread
      rw [hstop] at hf
      exact exec_onLine_quiet h hexec hf rfl rfl hlist rfl rfl
  refine ⟨fun hs cts => ⟨fun he hlast => ?_, fun st ts he => ?_⟩, fun hs htimer => ?_, fun hnone => ?_⟩
  · have hsent := Line.characterSent_eq cts hs hj he
    rw [if_pos (by simpa [TxJob.characters, hstation] using hlast), Line.lastCharacterSent, hstation] at hsent
    exact ends_of (f := Line.characterSent cts) rfl hsent hj rfl
  · exact ends_of (f := Line.characterSent cts) rfl (Line.characterSent_decided cts hs hj he) hj rfl
  · exact ends_of (f := Line.ctsTimeout) rfl (if_pos ⟨hs, Option.isSome_iff_ne_none.mpr htimer⟩) hj rfl
  · refine exec_onLine_none (f := Line.ctsTimeout) rfl (if_neg fun ⟨hs, htimer⟩ => ?_)
    rcases hnone with hn | hn
    · exact hn hs
    · rw [hn] at htimer
      exact Bool.noConfusion htimer

end Sys2Proof.Machine

/-! PROOFS of O57 (the end of a transmit data read). -/

namespace Sys2Proof.Machine

/-! ### The read that has ended (05 R92, R93, R99) -/

/-- The line whose read has ended, with CTS read. -/
def Line.readEnded (l : Line) (cts : Bool) : Line := { l with tx := { l.tx with outstanding := none, cts } }

/-- The line whose read has ended with BUS_ERROR, with `staging` left to send. -/
def Line.readBroken (l : Line) (cts : Bool) (staging : List Byte) : Line :=
  { l with tx := { l.tx with outstanding := none, cts, busError := true, staging } }

section Reads

variable {s : State} {n : LineNo} {t : Transfer} {l : Line} {j : TxJob}

theorem exec_txDataReadEnd_ok {bytes : List Byte} (cts : Bool) (h : s.inTransfer t)
    (ht : t.kind = .txDataRead n ∨ t.kind = .payloadRead n) (hb : bytes.length = t.extent.size) :
    exec (.txDataReadEnd n (.ok bytes) cts) s =
      .next (s.transferOver.updateLine n (((s.line n).readCts cts).readOver (.ok bytes))) := by
  dsimp only [exec, execTxDataReadEnd]
  rw [State.endTransfer_acts s _ _ t h.1 (by rcases ht with ht | ht <;> simp [ht]) h.2]
  exact if_pos hb

theorem exec_txDataReadEnd_busError (cts : Bool) (h : s.inTransfer t)
    (ht : t.kind = .txDataRead n ∨ t.kind = .payloadRead n) :
    exec (.txDataReadEnd n .busError cts) s =
      .next (s.transferOver.updateLine n (((s.line n).readCts cts).readOver .busError)) := by
  dsimp only [exec, execTxDataReadEnd]
  rw [State.endTransfer_acts s _ _ t h.1 (by rcases ht with ht | ht <;> simp [ht]) h.2]
  rfl

/-- A record whose end was decided drops the bytes and waits no longer for the read. -/
theorem Line.readOver_decided (cts : Bool) (e : ReadEnd (List Byte)) (hj : l.tx.job = some j) (he : l.tx.endCause ≠ none) :
    (l.readCts cts).readOver e = (l.readEnded cts).composeWaiting := by
  obtain ⟨cause, hcause⟩ := Option.ne_none_iff_exists'.mp he
  simp [Line.readOver, Line.readCts, Line.readEnded, hj, hcause]

theorem Line.readOver_ok (cts : Bool) (bytes : List Byte) (hj : l.tx.job = some j) (he : l.tx.endCause = none) :
    (l.readCts cts).readOver (.ok bytes) = (l.readEnded cts).bytesStaged bytes := by
  simp [Line.readOver, Line.readCts, Line.readEnded, hj, he]

theorem Line.readOver_failed (cts : Bool) (hj : l.tx.job = some j) (he : l.tx.endCause = none) :
    (l.readCts cts).readOver .busError =
      if j.station = none then (l.readEnded cts).dataReadFailed else (l.readEnded cts).requestFailed := by
  cases hstation : j.station <;> simp [Line.readOver, Line.readCts, Line.readEnded, hj, he, hstation]

/-- The completion that waited for the read of a STREAM line is composed. -/
theorem Line.composeSend_done {st : Status} {ts : TxState} (he : l.tx.endCause = some (st, ts)) (hs : l.tx.state = .idle)
    (ho : l.tx.outstanding = none) (hj : l.tx.job ≠ none) :
    l.composeSend = { l with tx := { l.tx.jobOver with
      list := completedHead { status := st, count := BitVec.ofNat 16 l.tx.sent,
                              detail := sendDetail l.tx.bytesRead l.tx.breakDone ts } l.tx.list } } := by
  simp [Line.composeSend, he, hs, ho, hj, Transmitter.sendResult, finishHead_eq]

theorem Line.composeSend_waits (hs : l.tx.state ≠ .idle) : l.composeSend = l := by
  unfold Line.composeSend
  split
  · exact if_neg fun h => hs h.1
  · rfl

end Reads

/-- Settles O57: by whether the record's end was decided, how the read ended, and the transmitter's state. -/
theorem dataReadEnds : Obligations.DataReadEnds := by
  intro s n t j bytes cts h htransfer hkind l hj hardware becomes reports
  have hquiet : s.transferOver.noNewOffers n := h
  have hok (hb : bytes.length = t.extent.size) := exec_txDataReadEnd_ok (bytes := bytes) cts htransfer hkind hb
  have hbus := exec_txDataReadEnd_busError cts htransfer hkind
  have quiet {i : Instr} {x : Transmitter} {k : Line} (hexec : exec i s = .next (s.transferOver.updateLine n k))
      (hk : k = { l with tx := x }) (hlist : x.list = l.tx.list) : becomes i x := by
    rw [hk] at hexec
    exact hexec.trans (congrArg _ (State.updateLine_quiet_stream hquiet rfl rfl hlist rfl rfl))
  refine ⟨fun he hb => ?_, fun he => ?_, fun m ms hmode hl hactive hnot ha ho => ?_,
    fun st ts he hwhen e hend hb => ?_, fun st ts he m ms hl hs hmode hnot => ?_⟩
  · intro x
    have hread := hok hb
    rw [Line.readOver_ok cts bytes hj he] at hread
    refine ⟨fun hs => quiet hread ?_ ?_, fun hs hstation c cs hstaged => ?_⟩
    · exact if_neg hs
    · rw [Transmitter.requestRead_rest]
    · have hrest := x.requestRead_rest
      have hstart : (l.readEnded cts).bytesStaged bytes = Line.startCharacter { l with tx := x.requestRead } := if_pos hs
      generalize x.requestRead = y at hrest hstart
      have hjob : y.job = some j := (congrArg Transmitter.job hrest).trans hj
      have hstagedy : y.staging = c :: cs := (congrArg Transmitter.staging hrest).trans hstaged
      have hsent : y.sent = l.tx.sent := (congrArg Transmitter.sent hrest :)
      have hcts : y.cts = cts := congrArg Transmitter.cts hrest
      have hlist : y.list = l.tx.list := (congrArg Transmitter.list hrest :)
      rw [Line.startCharacter_eq (l := { l with tx := y }) hjob (by rwa [← hsent] at hstation),
        if_neg (by simp [hstagedy])] at hstart
      have hhardware : Line.hardwareFlow { l with tx := y } = true ↔ hardware := Line.hardwareFlow_iff _
      refine ⟨fun hgo => quiet hread ?_ ?_, fun hhard hlow => quiet hread ?_ hlist⟩
      · have hgoes : ¬ (Line.hardwareFlow { l with tx := y } = true ∧ y.cts = false) := by
          rintro ⟨hflow, hlow⟩
          rcases hgo with hgo | hgo
          · exact hgo (hhardware.mp hflow)
          · exact Bool.noConfusion ((hcts.symm.trans hlow).symm.trans hgo)
        rw [if_neg hgoes, Line.sendStaged_cons (l := { l with tx := y }) j hstagedy] at hstart
        rw [hstart, hsent]
      · rw [Transmitter.requestRead_rest]
        exact hlist
      · rw [hstart, if_pos ⟨hhardware.mpr hhard, hcts.trans hlow⟩]
  · intro x
    rw [Line.readOver_failed cts hj he] at hbus
    refine ⟨fun hstation hs => ?_, fun m ms hl hstation hs hmode hnot => ?_, fun hstation hs => ?_⟩
    · rw [if_pos hstation] at hbus
      exact quiet hbus (if_neg hs) rfl
    · have hfailed : (l.readEnded cts).dataReadFailed = Line.stopCharacters { l with tx := x } .busError .load := if_pos hs
      rw [if_pos hstation, hfailed, Line.stopCharacters_stream (l := { l with tx := x }) .busError .load
        (Line.isPoll_of_stream hmode) (by simp [x, hj]) rfl] at hbus
      refine ⟨_, hbus, ?_⟩
      refine State.updateLine_sendDone (s := s.transferOver) (ms := ms) hquiet ?_ ?_ ?_ ?_ ?_ hnot
      exacts [rfl, rfl, rfl, rfl, congrArg (completedHead _) hl]
    · rw [if_neg hstation] at hbus
      exact quiet hbus (if_pos hs) rfl
  · intro p ends released sendResult pollResult
    refine ⟨fun he hend => ⟨fun hsend hstation hs => ?_, fun hpoll hstation hs => ?_⟩,
      fun st ts he hattempt e hkinds hb status hend => ?_⟩
    · have hfailed : (l.readEnded cts).dataReadFailed = (l.readBroken cts l.tx.staging).stopCharacters .busError .load := if_pos hs
      rw [Line.readOver_failed cts hj he, if_pos hstation, hfailed] at hbus
      obtain ⟨hreleased, hreports⟩ := State.updateLine_workEnded (s := s.transferOver) (l := l.readBroken cts l.tx.staging) hquiet
        .busError .load hmode rfl rfl hl ha ho rfl hnot
      have hstatus : (l.readBroken cts l.tx.staging).poll.endStatus.getD .busError = .busError := congrArg (Option.getD · _) hend
      rw [hstatus, Line.pollHalted_sendResult (l := l.readBroken cts l.tx.staging) _ _ _ hl hsend] at hreports
      exact ⟨⟨_, hbus, hreleased⟩, _, hbus, hreports⟩
    · have hfailed : (l.readEnded cts).requestFailed = (l.readBroken cts []).stopCharacters .busError l.tx.state := if_neg hs
      rw [Line.readOver_failed cts hj he, if_neg hstation, hfailed] at hbus
      obtain ⟨hreleased, hreports⟩ := State.updateLine_workEnded (s := s.transferOver) (l := l.readBroken cts []) hquiet
        .busError l.tx.state hmode rfl rfl hl ha ho rfl hnot
      have hstatus : (l.readBroken cts []).poll.endStatus.getD .busError = .busError := congrArg (Option.getD · _) hend
      rw [hstatus, Line.pollHalted_pollResult (l := l.readBroken cts []) _ _ _ hl hpoll] at hreports
      exact ⟨⟨_, hbus, hreleased⟩, _, hbus, hreports⟩
    · have hread : exec (.txDataReadEnd n e cts) s = .next (s.transferOver.updateLine n ((l.readCts cts).readOver e)) := by
        rcases hkinds with rfl | rfl
        · exact hbus
        · exact hok hb
      have hcompose : (l.readEnded cts).composeWaiting = (l.readEnded cts).composePoll := if_pos (Line.isPoll_of_poll hmode)
      have hends (r : Result) (hr : (l.readEnded cts).pollResult status = r) : ends (.txDataReadEnd n e cts) r := by
        rw [Line.readOver_decided cts e hj (by rw [he]; nofun), hcompose,
          Line.composePoll_done (l := l.readEnded cts) hend hattempt ha ho rfl, hr] at hread
        refine ⟨_, hread, ?_⟩
        refine State.updateLine_pollDone (s := s.transferOver) (ms := ms) hquiet ?_ ?_ ?_ ?_ hnot
        exacts [hmode, rfl, rfl, congrArg (completedHead _) hl]
      refine ⟨fun hsend => hends _ ?_, fun hpoll => ⟨fun hstatus => hends _ ?_, fun hstatus => hends _ ?_⟩⟩
      · rw [Line.pollResult_send (l := l.readEnded cts) status hl hsend]
        simp [Transmitter.sendResult, Line.readEnded, he, sendResult]
      · rw [Line.pollResult_poll (l := l.readEnded cts) status hl hpoll, hstatus]
        rfl
      · rw [Line.pollResult_poll (l := l.readEnded cts) status hl hpoll]
        rcases hstatus with rfl | rfl <;> rfl
  · have hover := Line.readOver_decided cts e hj (by rw [he]; nofun)
    have hread : exec (.txDataReadEnd n e cts) s =
        .next (s.transferOver.updateLine n ((l.readCts cts).readOver e)) := by
      rcases hend with rfl | rfl
      · exact hbus
      · exact hok hb
    rw [hover] at hread
    refine quiet hread ?_ rfl
    rcases hwhen with ⟨hmode, hs⟩ | ⟨hmode, hbusy⟩
    · exact (if_neg (by simp [Line.isPoll, Line.readEnded, hmode])).trans (Line.composeSend_waits (l := l.readEnded cts) hs)
    · refine (if_pos (Line.isPoll_of_poll hmode)).trans (Line.composePoll_waits (l := l.readEnded cts) ?_)
      exact .inr (hbusy.imp_right (Or.imp_right .inl))
  · have hdone := Line.composeSend_done (l := l.readEnded cts) he hs rfl (by simp [Line.readEnded, hj])
    have hcompose : (l.readEnded cts).composeWaiting = (l.readEnded cts).composeSend :=
      if_neg (by simp [Line.isPoll, Line.readEnded, hmode])
    have hover (e : ReadEnd (List Byte)) := Line.readOver_decided cts e hj (by rw [he]; exact nofun)
    have ends_of {i : Instr} {e : ReadEnd (List Byte)}
        (hexec : exec i s = .next (s.transferOver.updateLine n ((l.readCts cts).readOver e))) : reports i m st ts := by
      rw [hover, hcompose, hdone] at hexec
      refine ⟨_, hexec, ?_⟩
      refine State.updateLine_sendDone (s := s.transferOver) (ms := ms) hquiet ?_ ?_ ?_ ?_ ?_ hnot
      exacts [rfl, rfl, rfl, rfl, congrArg (completedHead _) hl]
    exact ⟨fun hb => ends_of (hok hb), ends_of hbus⟩

end Sys2Proof.Machine

/-! PROOFS of O58 (an attempt of a POLL begins). -/

namespace Sys2Proof.Machine

section Engine

variable {l : Line} {m : Member PollWork} {ms : List (Member PollWork)}

theorem PollEngine.headWork_eq {p : PollEngine} (hl : p.list = m :: ms) : p.headWork = some m.body := by
  simp [PollEngine.headWork, hl]

theorem PollEngine.headPoll_eq {p : PollEngine} {b : PollBody} (hl : p.list = m :: ms) (hb : m.body = .poll b) :
    p.headPoll = b := by
  simp [PollEngine.headPoll, PollEngine.headWork_eq hl, hb]

/-- A poll request begins with its station address, the ninth bit 1 (06 R111). -/
theorem Line.startCharacter_station {j : TxJob} {a : Byte} (hj : l.tx.job = some j) (ha : j.station = some a)
    (hs : l.tx.sent = 0) : l.startCharacter = l.startFrame a true := by
  unfold Line.startCharacter
  simp only [hj, ha, hs]

/-- The line with the driver on, as the character work of an attempt begins (06 R110, R111). -/
def Line.driving (l : Line) : Line :=
  { l with
    de := true
    rx := { l.rx with state := .off, read := [], sample := 0, idleTimer := none }
    poll := { l.poll with attempt := .request, guardSpan := none } }

theorem Line.guardEnd_poll {b : PollBody} (hl : l.poll.list = m :: ms) (hb : m.body = .poll b) (ha : l.poll.attempt = .guard) :
    l.guardEnd = some (l.driving.beginJob (PollWork.poll b).job).startCharacter := by
  unfold Line.guardEnd
  rw [ha, PollEngine.headWork_eq hl, hb]
  rfl

theorem Line.guardEnd_send {b : SendBody} (hl : l.poll.list = m :: ms) (hb : m.body = .send b) (ha : l.poll.attempt = .guard) :
    l.guardEnd = some (l.driving.beginJob (PollWork.send b).job) := by
  unfold Line.guardEnd
  rw [ha, PollEngine.headWork_eq hl, hb]
  rfl

theorem Line.guardEnd_none (ha : l.poll.attempt ≠ .guard) : l.guardEnd = none := by
  unfold Line.guardEnd
  split
  · next h _ => exact absurd h ha
  · rfl

/-- A job with a station address and no break sends its address at once. -/
theorem Line.beginJob_request {j : TxJob} {a : Byte} (ha : j.station = some a) (hbreak : j.send.breakBefore = 0) :
    (l.beginJob j).startCharacter = { l with tx := Transmitter.requestRead { l.tx with
      job := some j
      state := .send
      txd := .frame (txFrame l.record a true)
      readOffset := 0, sent := 0, bytesRead := 0, breakDone := false, staging := [], outstanding := none
      busError := false, endCause := none, ctsTimer := none, gapTimer := none } } := by
  rw [Line.beginJob_eq, if_pos hbreak, if_pos hbreak]
  set x : Transmitter := { l.tx with
    job := some j
    state := .load
    txd := .mark
    readOffset := 0, sent := 0, bytesRead := 0, breakDone := false, staging := [], outstanding := none
    busError := false, endCause := none, ctsTimer := none, gapTimer := none } with hx
  have hrest := x.requestRead_rest
  have hwith := x.requestRead_with .send (.frame (txFrame l.record a true))
  generalize x.requestRead = y at hrest hwith
  have hjob : y.job = some j := (congrArg Transmitter.job hrest :)
  have hsent : y.sent = 0 := (congrArg Transmitter.sent hrest :)
  have hcts : y.ctsTimer = none := (congrArg Transmitter.ctsTimer hrest :)
  have hgap : y.gapTimer = none := (congrArg Transmitter.gapTimer hrest :)
  rw [Line.startCharacter_station (l := { l with tx := y }) hjob ha hsent, ← hwith, Line.startFrame]
  simp only [hcts, hgap]

/-- After the last character of a request the window opens and the reply timeout runs (06 R112). -/
theorem Line.requestSent_eq {b : PollBody} (hl : l.poll.list = m :: ms) (hb : m.body = .poll b) :
    l.requestSent = { l with
      de := false
      rx := if l.state = .enabled then { l.rx with state := .hunt, read := [], sample := 0 } else l.rx
      tx := { l.tx.jobOver with state := .idle, txd := .mark }
      poll := { l.poll with
        attempt := .release, window := true, fill := 0, written := 0, replyTimer := some b.timeout
        quiet := decide (l.state = .enabled) } } := by
  unfold Line.requestSent
  rw [Line.releaseDriver_eq]
  simp only [PollEngine.headPoll_eq (p := { l.poll with quiet := decide (l.state = .enabled) }) hl hb]

end Engine

/-- The engine takes the LISTED head of its work list (06 R106, R108, R110). -/
theorem Line.takePoll_eq {l : Line} {m : Member PollWork} {ms : List (Member PollWork)} (hl : l.poll.list = m :: ms) :
    l.takePoll =
      if l.isPoll = true ∧ l.poll.attempt = .none ∧ m.phase = .listed then
        some { l with poll := { l.poll with
          list := activateHead (m :: ms), attempt := .guard, attemptNumber := m.body.firstAttempt, outcome := .none,
          lastOutcome := .none, seen := 0, fill := 0, written := 0, endStatus := none,
          guardSpan := some (l.record.guardTime.toNat * 16 * l.record.frameLength) } }
      else none := by
  unfold Line.takePoll
  rw [hl]
  rfl

/-- Settles O58: by the attempt state. -/
theorem pollAttemptBegins : Obligations.PollAttemptBegins := by
  intro s n m ms h l hl may fresh driven
  have htake := Line.takePoll_eq hl
  have hmay : (l.isPoll = true ∧ l.poll.attempt = .none ∧ m.phase = .listed) ↔ may := by
    rw [show l.isPoll = true ↔ l.record.mode = .poll from beq_iff_eq]
  refine ⟨fun hyes => ?_, fun hn => exec_onLine_none (f := Line.takePoll) rfl (htake.trans (if_neg (hmay.not.mpr hn))),
    fun b hb ha => ?_, fun b hb ha => ?_, fun ha => exec_onLine_none (f := Line.guardEnd) rfl (Line.guardEnd_none ha),
    fun b hb j hj cts hstation hs he hlast => ?_, fun ha => ?_, fun ha => exec_onLine_none (f := Line.awaitEntry) rfl (if_neg ha)⟩
  · have hhead : activateHead (m :: ms) = { m with phase := .active } :: ms := by rw [activateHead, if_pos hyes.2.2]
    rw [if_pos (hmay.mpr hyes), hhead] at htake
    refine (exec_onLine_some (f := Line.takePoll) rfl htake).trans ?_
    refine (congrArg _ (s.updateLine_quiet n _ h ?_ ?_ ?_ ?_ ?_)).trans ?_
    · rfl
    · rfl
    · rfl
    · rfl
    · rw [hl, headResult_of_listed hyes.2.2]
      rfl
    · obtain ⟨slot, phase, body⟩ := m
      cases body <;> rfl
  · have hguard := Line.guardEnd_poll hl hb ha
    rw [Line.beginJob_request (a := b.station) rfl rfl] at hguard
    refine exec_onLine_quiet (f := Line.guardEnd) h rfl hguard rfl rfl ?_ rfl rfl
    exact Transmitter.requestRead_list _
  · have hguard := Line.guardEnd_send hl hb ha
    rw [Line.beginJob_eq] at hguard
    refine exec_onLine_quiet (f := Line.guardEnd) h rfl hguard rfl rfl ?_ rfl rfl
    exact Transmitter.requestRead_list _
  · obtain ⟨a, hstation⟩ := Option.ne_none_iff_exists'.mp hstation
    have hsent := Line.characterSent_eq cts hs hj he
    rw [if_pos (by simpa [TxJob.characters, hstation] using hlast), Line.lastCharacterSent, hstation] at hsent
    refine exec_onLine_quiet (f := Line.characterSent cts) h rfl ?_ rfl rfl rfl rfl rfl
    refine hsent.trans (congrArg some ?_)
    refine (Line.requestSent_eq (l := { l with tx := { l.tx with sent := l.tx.sent + 1, cts } }) hl hb).trans ?_
    simp only [Transmitter.jobOver, he]
  · exact exec_onLine_quiet (f := Line.awaitEntry) h rfl (if_pos ha) rfl rfl rfl rfl rfl

end Sys2Proof.Machine

/-! PROOFS of O59 (how a reply is judged). -/

namespace Sys2Proof.Machine

/-! ### The write request of the poll engine (06 R118) -/

/-- A write request changes the assembly and the write outstanding alone. -/
theorem Line.requestReplyWrite_rest (l : Line) :
    l.requestReplyWrite = { l with poll := { l.poll with
      assembly := l.requestReplyWrite.poll.assembly, outstanding := l.requestReplyWrite.poll.outstanding } } := by
  rw [l.requestReplyWrite_spec]
  split <;> rfl

theorem Line.requestReplyWrite_not {l : Line}
    (h : ¬ (l.poll.outstanding = none ∧ l.poll.assembly ≠ [] ∧
      (l.poll.hasRoom = false ∨ l.rx.fifo = [] ∨ l.poll.attempt = .settle))) : l.requestReplyWrite = l := by
  rw [l.requestReplyWrite_spec, if_neg h]

/-- Nothing to write, or a write outstanding: nothing is requested. -/
theorem Line.requestReplyWrite_nothing {l : Line} (h : l.poll.outstanding ≠ none ∨ l.poll.assembly = []) :
    l.requestReplyWrite = l := by
  refine Line.requestReplyWrite_not fun ⟨ho, ha, _⟩ => ?_
  rcases h with h | h
  · exact h ho
  · exact ha h

/-- A request made again changes nothing. -/
theorem Line.requestReplyWrite_twice (l : Line) : l.requestReplyWrite.requestReplyWrite = l.requestReplyWrite := by
  by_cases h : l.poll.outstanding = none ∧ l.poll.assembly ≠ [] ∧
      (l.poll.hasRoom = false ∨ l.rx.fifo = [] ∨ l.poll.attempt = .settle)
  · refine Line.requestReplyWrite_nothing (.inr ?_)
    rw [l.requestReplyWrite_spec, if_pos h]
  · rw [Line.requestReplyWrite_not h, Line.requestReplyWrite_not h]

section Head

variable {l : Line} {m : Member PollWork} {ms : List (Member PollWork)} {b : PollBody}

theorem PollEngine.hasRoom_iff {p : PollEngine} (hl : p.list = m :: ms) (hb : m.body = .poll b) :
    p.hasRoom = true ↔ p.assembly.length < 16 ∧ (p.assembly = [] ∨ (b.replyAddress.toNat + p.fill) % 32 ≠ 0) := by
  rw [PollEngine.hasRoom, assemblyHasRoom_iff, PollEngine.headPoll_eq hl hb]

/-- The engine requests its write when 06 R118 lets it. -/
theorem Line.requestReplyWrite_made (hl : l.poll.list = m :: ms) (hb : m.body = .poll b) (ho : l.poll.outstanding = none)
    (ha : l.poll.assembly ≠ []) (hwhen : l.poll.hasRoom = false ∨ l.rx.fifo = [] ∨ l.poll.attempt = .settle) :
    l.requestReplyWrite = { l with poll := { l.poll with
      assembly := []
      outstanding := some
        { address := b.replyAddress + BitVec.ofNat 40 (l.poll.fill - l.poll.assembly.length)
          size := l.poll.assembly.length
          bytes := l.poll.assembly } } } := by
  rw [l.requestReplyWrite_spec, if_pos ⟨ho, ha, hwhen⟩]
  simp [assemblyWrite, PollEngine.headPoll_eq hl hb]

end Head

/-! ### The outcome of an attempt (06 R119) -/

/-- The engine as the outcome of its attempt is decided. -/
def PollEngine.settled (p : PollEngine) (o : PollOutcome) : PollEngine :=
  { p with attempt := .settle, outcome := o, replyTimer := none, gapTimer := none, tail := none }

/-- The line as its attempt fails: the window closed, the FIFO discarded. -/
def Line.failed (l : Line) (o : PollOutcome) : Line :=
  { l with rx := { l.rx with fifo := [] }, poll := { l.poll.settled o with window := false } }

theorem Line.closeWindowIfWritten_not {l : Line}
    (h : l.poll.window = false ∨ l.poll.assembly ≠ [] ∨ l.poll.outstanding ≠ none) : l.closeWindowIfWritten = l := by
  refine if_neg fun ⟨_, hw, ha, ho⟩ => ?_
  rcases h with h | h | h
  · exact Bool.noConfusion (h.symm.trans hw)
  · exact h ha
  · exact h ho

/-- A failure closes the window and discards the FIFO; what is assembled is written. -/
theorem Line.decideOutcome_failed (l : Line) {o : PollOutcome} (h : o ≠ .ok) :
    l.decideOutcome o = (l.failed o).requestReplyWrite := by
  have hdecide : l.decideOutcome o = (l.failed o).requestReplyWrite.closeWindowIfWritten := by
    rw [Line.decideOutcome]
    exact congrArg (fun k : Line => k.requestReplyWrite.closeWindowIfWritten) (if_neg h)
  rw [hdecide]
  refine Line.closeWindowIfWritten_not (.inl ?_)
  rw [Line.requestReplyWrite_rest]
  rfl

theorem Line.decideOutcome_ok (l : Line) :
    l.decideOutcome .ok = (Line.requestReplyWrite { l with poll := l.poll.settled .ok }).closeWindowIfWritten := rfl

/-- A reply with bytes to write keeps its window until they are written. -/
theorem Line.decideOutcome_writing {l : Line} (h : l.poll.assembly ≠ [] ∨ l.poll.outstanding ≠ none) :
    l.decideOutcome .ok = Line.requestReplyWrite { l with poll := l.poll.settled .ok } := by
  rw [Line.decideOutcome_ok]
  refine Line.closeWindowIfWritten_not (.inr (.inr ?_))
  by_cases ho : l.poll.outstanding = none
  · rw [Line.requestReplyWrite_spec, if_pos ⟨ho, h.resolve_right (not_not_intro ho), .inr (.inr rfl)⟩]
    exact Option.some_ne_none _
  · rw [Line.requestReplyWrite_nothing (l := { l with poll := l.poll.settled .ok }) (.inl ho)]
    exact ho

/-- A reply with nothing to write closes its window at once. -/
theorem Line.decideOutcome_done {l : Line} (hw : l.poll.window = true) (ha : l.poll.assembly = [])
    (ho : l.poll.outstanding = none) : l.decideOutcome .ok = l.failed .ok := by
  rw [Line.decideOutcome_ok, Line.requestReplyWrite_nothing (l := { l with poll := l.poll.settled .ok }) (.inr ha)]
  exact if_pos ⟨rfl, hw, ha, ho⟩

/-! ### Entries taken (06 R114 to R117) -/

/-- The reply gap has passed: the entries then staged are the reply's tail. -/
def Line.gapPassed (l : Line) : Line := { l with poll := { l.poll with gapTimer := none, tail := some l.rx.fifo.length } }

theorem Line.decideGap_other {l : Line} (h : l.poll.attempt ≠ .reply ∨ l.poll.tail ≠ some 0) : l.decideGap = l := by
  refine if_neg fun ⟨ha, ht⟩ => ?_
  rcases h with h | h
  · exact h ha
  · exact h ht

/-- The line in REPLY without the entry that was at its staging head. -/
def Line.replyTaken (l : Line) (es : List Staged) : Line :=
  { l with rx := { l.rx with fifo := es }, poll := l.poll.tailTaken }

/-- The line with one more reply byte in the assembly (06 R116, case 4). -/
def Line.withReplyByte (l : Line) (e : Staged) : Line :=
  { l with poll := { l.poll with assembly := l.poll.assembly ++ [e.value], fill := l.poll.fill + 1 } }

section Entries

variable {l : Line} {e : Staged} {es : List Staged}

theorem Line.pollTakeEntry_await (hf : l.rx.fifo = e :: es) (ha : l.poll.attempt = .await) :
    l.pollTakeEntry = some (Line.judgeAwait { l with rx := { l.rx with fifo := es } } e) := by
  unfold Line.pollTakeEntry
  simp only [hf, ha]

theorem Line.pollTakeEntry_reply (hf : l.rx.fifo = e :: es) (ha : l.poll.attempt = .reply) (hroom : l.poll.hasRoom = true) :
    l.pollTakeEntry = some (Line.requestReplyWrite (Line.decideGap
      ((l.replyTaken es).judgeReply e))) := by
  unfold Line.pollTakeEntry
  simp only [hf, ha, hroom]
  rfl

theorem Line.pollTakeEntry_none (h : l.rx.fifo = [] ∨ (l.poll.attempt ≠ .await ∧ l.poll.attempt ≠ .reply) ∨
    (l.poll.attempt = .reply ∧ l.poll.hasRoom = false)) : l.pollTakeEntry = none := by
  unfold Line.pollTakeEntry
  split
  · next hf =>
    rcases h with h | ⟨hawait, hreply⟩ | ⟨hreply, hroom⟩
    · exact absurd (h.symm.trans hf) nofun
    · dsimp only
      split
      · next ha => exact absurd ha hawait
      · next ha => exact absurd ha hreply
      · rfl
    · simp [hreply, hroom]
  · rfl

/-- In AWAIT an entry that can be no reply start is stray (06 R115). -/
theorem Line.judgeAwait_stray (h : e.framing = true ∨ e.brk = true ∨ e.mark = false) : l.judgeAwait e = l.addStray :=
  if_pos (by simpa [or_assoc] using h)

theorem Line.judgeAwait_address {b : PollBody} (hb : l.poll.headPoll = b) (hframing : e.framing = false) (hbrk : e.brk = false)
    (hmark : e.mark = true) :
    l.judgeAwait e =
      if e.value = b.station then
        if b.replyEnd = .length ∧ b.replyCapacity = 0 then
          Line.decideOutcome { l with poll := { l.poll with
            attempt := .reply, replyTimer := none, gapTimer := some (b.replyGap * 16 * l.record.frameLength) } } .ok
        else { l with poll := { l.poll with
          attempt := .reply, replyTimer := none, gapTimer := some (b.replyGap * 16 * l.record.frameLength) } }
      else l.decideOutcome .addressMismatch := by
  subst hb
  exact if_neg (by simp [hframing, hbrk, hmark])

theorem Line.judgeReply_framing (h : e.framing = true ∨ e.brk = true) : l.judgeReply e = l.decideOutcome .framing :=
  if_pos (by simpa using h)

theorem Line.judgeReply_collision (hframing : e.framing = false) (hbrk : e.brk = false) (hmark : e.mark = true) :
    l.judgeReply e = l.decideOutcome .collision :=
  (if_neg (by simp [hframing, hbrk])).trans (if_pos hmark)

theorem Line.judgeReply_data {b : PollBody} (hb : l.poll.headPoll = b) (hframing : e.framing = false) (hbrk : e.brk = false)
    (hmark : e.mark = false) :
    l.judgeReply e =
      if b.replyEnd = .gap ∧ l.poll.fill = b.replyCapacity then l.decideOutcome .overlong
      else if b.replyEnd = .length ∧ b.replyCapacity ≤ l.poll.fill + 1 then
        (l.withReplyByte e).decideOutcome .ok
      else l.withReplyByte e := by
  subst hb
  exact (if_neg (by simp [hframing, hbrk])).trans (if_neg (by simp [hmark]))

theorem Line.judgeReply_overlong {b : PollBody} (hb : l.poll.headPoll = b) (hframing : e.framing = false) (hbrk : e.brk = false)
    (hmark : e.mark = false) (h : b.replyEnd = .gap ∧ l.poll.fill = b.replyCapacity) :
    l.judgeReply e = l.decideOutcome .overlong := by
  rw [Line.judgeReply_data hb hframing hbrk hmark, if_pos h]

theorem Line.judgeReply_last {b : PollBody} (hb : l.poll.headPoll = b) (hframing : e.framing = false) (hbrk : e.brk = false)
    (hmark : e.mark = false) (h : ¬ (b.replyEnd = .gap ∧ l.poll.fill = b.replyCapacity))
    (hlast : b.replyEnd = .length ∧ b.replyCapacity ≤ l.poll.fill + 1) :
    l.judgeReply e = (l.withReplyByte e).decideOutcome .ok := by
  rw [Line.judgeReply_data hb hframing hbrk hmark, if_neg h, if_pos hlast]

theorem Line.judgeReply_stored {b : PollBody} (hb : l.poll.headPoll = b) (hframing : e.framing = false) (hbrk : e.brk = false)
    (hmark : e.mark = false) (h : ¬ (b.replyEnd = .gap ∧ l.poll.fill = b.replyCapacity))
    (hlast : ¬ (b.replyEnd = .length ∧ b.replyCapacity ≤ l.poll.fill + 1)) :
    l.judgeReply e = l.withReplyByte e := by
  rw [Line.judgeReply_data hb hframing hbrk hmark, if_neg h, if_neg hlast]

/-- The reply gap has passed and every entry is taken (06 R117). -/
theorem Line.decideGap_fires {b : PollBody} (hb : l.poll.headPoll = b) (ha : l.poll.attempt = .reply)
    (ht : l.poll.tail = some 0) : l.decideGap = l.decideOutcome (gapOutcome b.replyEnd) := by
  subst hb
  exact if_pos ⟨ha, ht⟩

/-- An outcome decided leaves the tail count no say, and its write is requested already. -/
theorem Line.decided_requested {k : Line} (h : k.poll.attempt = .settle) :
    Line.requestReplyWrite (Line.decideGap k.requestReplyWrite) = k.requestReplyWrite := by
  have hattempt : k.requestReplyWrite.poll.attempt ≠ .reply := by
    rw [Line.requestReplyWrite_rest]
    exact fun hr => AttemptState.noConfusion (h.symm.trans hr)
  rw [Line.decideGap_other (.inl hattempt), Line.requestReplyWrite_twice]

end Entries

/-- Settles O59: by the attempt state, the entry, and the reply-end rule. -/
theorem replyJudged : Obligations.ReplyJudged := by
  refine ⟨fun l m ms b => ?_, fun s n m ms b h => ?_⟩
  · intro p hl hb room requests
    have hroom : p.hasRoom = false ↔ ¬ room := by rw [← Bool.not_eq_true, PollEngine.hasRoom_iff hl hb]
    refine ⟨fun hn => Line.requestReplyWrite_not fun ⟨ho, ha, hwhen⟩ => hn ⟨ho, ha, ?_⟩, fun ⟨ho, ha, hwhen⟩ =>
      Line.requestReplyWrite_made hl hb ho ha ?_⟩
    · rwa [← hroom]
    · rwa [hroom]
  · intro l p hl hb hwindow becomes room settled failed
    have hroom : p.hasRoom = true ↔ room := PollEngine.hasRoom_iff hl hb
    have hhead : p.headPoll = b := PollEngine.headPoll_eq hl hb
    have kept {i : Instr} {f : Line → Option Line} {k : Line} (hexec : exec i s = onLine n f s) (hf : f l = some k)
        (hk : k = { l with rx := k.rx, poll := k.poll, event := k.event }) (hlist : k.poll.list = p.list) : becomes i k := by
      refine exec_onLine_quiet h hexec hf ?_ ?_ ?_ ?_ hlist
      all_goals rw [hk]
    have requested {i : Instr} {f : Line → Option Line} {k : Line} (hexec : exec i s = onLine n f s)
        (hf : f l = some k.requestReplyWrite) (hk : k = { l with rx := k.rx, poll := k.poll, event := k.event })
        (hlist : k.poll.list = p.list) : becomes i k.requestReplyWrite := by
      refine kept hexec hf ?_ ?_
      · rw [k.requestReplyWrite_rest, hk]
      · rw [k.requestReplyWrite_rest]
        exact hlist
    refine ⟨fun e es hf ha => ?_, fun hn => exec_onLine_none (f := Line.pollTakeEntry) rfl (Line.pollTakeEntry_none ?_),
      fun e es hf ha hfree => ?_, fun ha ht => ?_, fun hn => exec_onLine_none (f := Line.replyTimeout) rfl (if_neg ?_),
      fun ha ht => ?_, fun hn => exec_onLine_none (f := Line.replyGapFire) rfl (if_neg ?_)⟩
    · have htake := Line.pollTakeEntry_await hf ha
      refine ⟨fun he => ?_, fun hframing hbrk hmark => ?_⟩
      · rw [Line.judgeAwait_stray he] at htake
        exact kept (f := Line.pollTakeEntry) rfl htake rfl rfl
      · rw [Line.judgeAwait_address (l := { l with rx := { l.rx with fifo := es } }) hhead hframing hbrk hmark] at htake
        refine ⟨fun hv => ?_, fun hv hr => ?_, fun hv hr hc has ho => ?_, fun hv hr hc hbusy => ?_⟩
        · rw [if_neg hv, Line.decideOutcome_failed (o := .addressMismatch) _ nofun] at htake
          exact requested (k := l.failed .addressMismatch) (f := Line.pollTakeEntry) rfl htake rfl rfl
        · have hgoes : ¬ (b.replyEnd = .length ∧ b.replyCapacity = 0) := by
            rintro ⟨hlength, hzero⟩
            rcases hr with hr | hr
            · exact ReplyEnd.noConfusion (hr.symm.trans hlength)
            · exact hr hzero
          rw [if_pos hv, if_neg hgoes] at htake
          exact kept (f := Line.pollTakeEntry) rfl htake rfl rfl
        · rw [if_pos hv, if_pos ⟨hr, hc⟩, Line.decideOutcome_done] at htake
          · exact kept (f := Line.pollTakeEntry) rfl htake rfl rfl
          · exact hwindow (.inl ha)
          · exact has
          · exact ho
        · rw [if_pos hv, if_pos ⟨hr, hc⟩, Line.decideOutcome_writing] at htake
          · exact requested (k := { l with rx := { l.rx with fifo := es }, poll := settled p .ok }) (f := Line.pollTakeEntry) rfl
              htake rfl rfl
          · exact hbusy
    · exact hn.imp_right (Or.imp_right fun ⟨hreply, hfull⟩ => ⟨hreply, by rwa [← Bool.not_eq_true, hroom]⟩)
    · have htake := Line.pollTakeEntry_reply hf ha (hroom.mpr hfree)
      intro q stored
      refine ⟨fun he => ?_, fun hframing hbrk => ⟨fun hmark => ?_, fun hmark => ?_⟩⟩
      · rw [Line.judgeReply_framing he, Line.decideOutcome_failed (o := .framing) _ nofun, Line.decided_requested rfl] at htake
        exact requested (k := l.failed .framing) (f := Line.pollTakeEntry) rfl htake rfl rfl
      · rw [Line.judgeReply_collision hframing hbrk hmark, Line.decideOutcome_failed (o := .collision) _ nofun,
          Line.decided_requested rfl] at htake
        exact requested (k := l.failed .collision) (f := Line.pollTakeEntry) rfl htake rfl rfl
      · have hheadTaken : (l.replyTaken es).poll.headPoll = b := hhead
        refine ⟨fun hr hfill => ?_, fun hr hcap => ?_, fun hr => ?_⟩
        · rw [Line.judgeReply_overlong hheadTaken hframing hbrk hmark ⟨hr, hfill⟩,
            Line.decideOutcome_failed (o := .overlong) _ nofun, Line.decided_requested rfl] at htake
          exact requested (k := l.failed .overlong) (f := Line.pollTakeEntry) rfl htake rfl rfl
        · rw [Line.judgeReply_last hheadTaken hframing hbrk hmark (fun hg => ReplyEnd.noConfusion (hg.1.symm.trans hr)) ⟨hr, hcap⟩,
            Line.decideOutcome_writing (.inl (by simp [Line.withReplyByte])), Line.decided_requested rfl] at htake
          exact requested (k := { l with rx := { l.rx with fifo := es }, poll := settled stored .ok }) (f := Line.pollTakeEntry)
            rfl htake rfl rfl
        · have hnotOver : ¬ (b.replyEnd = .gap ∧ p.fill = b.replyCapacity) := by
            rintro ⟨hg, hfill⟩
            rcases hr with hr | hr
            · exact hr.2 hfill
            · exact ReplyEnd.noConfusion (hg.symm.trans hr.1)
          have hnotLast : ¬ (b.replyEnd = .length ∧ b.replyCapacity ≤ p.fill + 1) := by
            rintro ⟨hlength, hfill⟩
            rcases hr with hr | hr
            · exact ReplyEnd.noConfusion (hr.1.symm.trans hlength)
            · omega
          rw [Line.judgeReply_stored hheadTaken hframing hbrk hmark hnotOver hnotLast] at htake
          refine ⟨fun ht => ?_, fun ht hg => ?_, fun ht hlength => ?_⟩
          · rw [Line.decideGap_other (.inr ht)] at htake
            exact requested (k := { l with rx := { l.rx with fifo := es }, poll := stored }) (f := Line.pollTakeEntry) rfl htake
              rfl rfl
          · rw [Line.decideGap_fires (l := (l.replyTaken es).withReplyByte e) hhead ha ht, hg, gapOutcome,
              Line.decideOutcome_writing (.inl (by simp [Line.withReplyByte])),
              Line.requestReplyWrite_twice] at htake
            exact requested (k := { l with rx := { l.rx with fifo := es }, poll := settled stored .ok })
              (f := Line.pollTakeEntry) rfl htake rfl rfl
          · rw [Line.decideGap_fires (l := (l.replyTaken es).withReplyByte e) hhead ha ht, hlength, gapOutcome,
              Line.decideOutcome_failed (o := .truncated) _ nofun,
              Line.requestReplyWrite_twice] at htake
            exact requested (k := { l with rx := { l.rx with fifo := [] }, poll := { settled stored .truncated with window := false } })
              (f := Line.pollTakeEntry) rfl htake rfl rfl
    · have htimeout : l.replyTimeout = some (l.decideOutcome .noStart) := if_pos ⟨ha, Option.isSome_iff_ne_none.mpr ht⟩
      rw [Line.decideOutcome_failed (o := .noStart) _ nofun] at htimeout
      exact requested (k := l.failed .noStart) (f := Line.replyTimeout) rfl htimeout rfl rfl
    · rintro ⟨ha, ht⟩
      rcases hn with hn | hn
      · exact hn ha
      · exact Option.isSome_iff_ne_none.mp ht hn
    · have hfire : l.replyGapFire = some l.gapPassed.decideGap := if_pos ⟨ha, Option.isSome_iff_ne_none.mpr ht⟩
      have hfires (hf : l.rx.fifo = []) := Line.decideGap_fires (l := l.gapPassed) hhead ha (by simp [Line.gapPassed, hf])
      refine ⟨fun hf => ?_, fun hf hr => ?_, fun hf hr hbusy => ?_, fun hf hr has ho => ?_⟩
      · rw [Line.decideGap_other (l := l.gapPassed) (.inr (by simpa [Line.gapPassed] using hf))] at hfire
        exact kept (f := Line.replyGapFire) rfl hfire rfl rfl
      · rw [hfires hf, hr, gapOutcome, Line.decideOutcome_failed (o := .truncated) _ nofun] at hfire
        exact requested (k := l.failed .truncated) (f := Line.replyGapFire) rfl hfire rfl rfl
      · rw [hfires hf, hr, gapOutcome, Line.decideOutcome_writing (l := l.gapPassed) hbusy] at hfire
        exact requested (k := { l with poll := settled p .ok }) (f := Line.replyGapFire) rfl hfire rfl rfl
      · rw [hfires hf, hr, gapOutcome, Line.decideOutcome_done (l := l.gapPassed) (hwindow (.inr ha)) has ho] at hfire
        have hrx : { l.rx with fifo := [] } = l.rx := by rw [← hf]
        have hfailed : l.gapPassed.failed .ok =
            { l with poll := { settled p .ok with window := false } } := by
          show ({ l with rx := { l.rx with fifo := [] }, poll := { settled p .ok with window := false } } : Line) = _
          rw [hrx]
        rw [hfailed] at hfire
        exact kept (f := Line.replyGapFire) rfl hfire rfl rfl
    · rintro ⟨ha, ht⟩
      rcases hn with hn | hn
      · exact hn ha
      · exact Option.isSome_iff_ne_none.mp ht hn

end Sys2Proof.Machine

/-! PROOFS of O60 (reply writes, retries and the end of a record on a POLL line). -/

namespace Sys2Proof.Machine

/-! ### What the offers of a moment leave of a poll engine -/

/-- The completions of POLL line `l` that entered the backlog left its receiver, its event unit and its attempt alone. -/
structure Line.EngineStill (l k : Line) : Prop where
  record : k.record = l.record
  state : k.state = l.state
  rx : k.rx = l.rx
  event : k.event = l.event
  poll : k.poll = { l.poll with list := k.poll.list, attempt := k.poll.attempt }

theorem Line.EngineStill.refl (l : Line) : l.EngineStill l := ⟨rfl, rfl, rfl, rfl, rfl⟩

theorem Line.EngineStill.trans {l k m : Line} (h : l.EngineStill k) (j : k.EngineStill m) : l.EngineStill m where
  record := j.record.trans h.record
  state := j.state.trans h.state
  rx := j.rx.trans h.rx
  event := j.event.trans h.event
  poll := by rw [j.poll, h.poll]

theorem Line.recordEntered_engineStill (l : Line) (i : Slot) : l.EngineStill (l.recordEntered i) := by
  obtain ⟨control, progress, h⟩ := l.recordEntered_eq i
  rw [h]
  exact ⟨rfl, rfl, rfl, rfl, rfl⟩

theorem Line.movedOn_engineStill (l : Line) (i : Slot) (r : Result) (p : Producer) (hp : l.isPoll = true) :
    l.EngineStill (l.movedOn i r p) := by
  cases p with
  | dispatcher | fence | event => exact .refl l
  | control n => exact ⟨rfl, rfl, rfl, rfl, rfl⟩
  | transmitter n =>
    exact .trans (k := { l with tx := { l.tx with list := l.tx.list.tail } }) ⟨rfl, rfl, rfl, rfl, rfl⟩
      (Line.recordEntered_engineStill _ i)
  | data n =>
    have hmoved : l.movedOn i r (.data n) = l.pollEntered i := if_pos hp
    rw [hmoved]
    exact .trans (k := { l with poll := { l.poll with list := l.poll.list.tail, attempt := .none } }) ⟨rfl, rfl, rfl, rfl, rfl⟩
      (Line.recordEntered_engineStill _ i)

theorem State.updateLine_engineStill (s : State) (n : LineNo) {k : Line} (hp : k.isPoll = true) :
    k.EngineStill ((s.updateLine n k).line n) := by
  refine State.settle_induction (lineProducers n) (P := fun t => k.EngineStill (t.line n)) (fun _ _ h => h) ?_
    (fun _ _ h _ _ _ => h) settleBound ?_
  · intro t p h hmem hoff _ _
    obtain ⟨⟨i, r⟩, hir⟩ := Option.isSome_iff_exists.mp hoff
    rw [State.enterBacklog_line_same hir (mem_lineProducers.mp hmem)]
    exact h.trans (Line.movedOn_engineStill _ i r p (by rw [Line.isPoll, h.record]; exact hp))
  · rw [State.line_setLine_same]
    exact .refl k

/-! ### Character work that ends a record (06 R111, R113, R123) -/

theorem State.updateLine_workEnded_job (s : State) (n : LineNo) {l : Line} (st : Status) (ts : TxState) (hp : l.isPoll = true)
    (ha : l.poll.assembly = []) (ho : l.poll.outstanding = none) (hr : l.tx.outstanding = none) :
    ((s.updateLine n (l.stopCharacters st ts)).line n).tx.job = none := by
  rw [(s.updateLine_charactersStill n _).tx, Line.stopCharacters_pollDone st ts hp ha ho hr]
  rfl

/-! ### The end of a reply write (06 R118, R119, R122) -/

section Writes

variable {s : State} {n : LineNo} {t : Transfer} {l : Line}

theorem exec_replyWriteEnd_ok (h : s.inTransfer t) (ht : t.kind = .replyWrite n) :
    exec (.replyWriteEnd n .ok) s = .next (s.transferOver.updateLine n ((s.line n).replyWritten t.extent.size)) := by
  dsimp only [exec, execReplyWriteEnd]
  rw [State.endTransfer_acts s _ _ t h.1 (by simp [ht]) h.2]
  rfl

theorem exec_replyWriteEnd_busError (h : s.inTransfer t) (ht : t.kind = .replyWrite n) :
    exec (.replyWriteEnd n .busError) s = .next (s.transferOver.updateLine n (s.line n).replyWriteFailed) := by
  dsimp only [exec, execReplyWriteEnd]
  rw [State.endTransfer_acts s _ _ t h.1 (by simp [ht]) h.2]
  rfl

/-- The line whose reply write of `size` bytes has ended OK. -/
def Line.replyCounted (l : Line) (size : Nat) : Line :=
  { l with poll := { l.poll with outstanding := none, written := l.poll.written + size } }

theorem Line.closeWindowIfWritten_other (h : l.poll.attempt ≠ .settle) : l.closeWindowIfWritten = l :=
  if_neg fun hc => h hc.1

/-- The close of a window changes the FIFO and the window alone. -/
theorem Line.closeWindowIfWritten_rest (l : Line) :
    l.closeWindowIfWritten = { l with
      rx := { l.rx with fifo := l.closeWindowIfWritten.rx.fifo }
      poll := { l.poll with window := l.closeWindowIfWritten.poll.window } } := by
  unfold Line.closeWindowIfWritten
  split <;> rfl

/-- Before the outcome is decided a reply write ends with the next request. -/
theorem Line.replyWritten_open (size : Nat) (h : l.poll.attempt ≠ .settle) :
    l.replyWritten size = (l.replyCounted size).requestReplyWrite := by
  have hattempt : (l.replyCounted size).requestReplyWrite.poll.attempt ≠ .settle := by
    rw [Line.requestReplyWrite_rest]
    exact h
  have hclose := Line.closeWindowIfWritten_other hattempt
  show (l.replyCounted size).requestReplyWrite.closeWindowIfWritten.composePoll = _
  rw [hclose, Line.composePoll_waits (.inr (.inl hattempt))]

/-- With nothing assembled the window of an OK reply closes, and a record whose end is decided completes. -/
theorem Line.replyWritten_last (size : Nat) (h : l.poll.assembly = []) :
    l.replyWritten size = (l.replyCounted size).closeWindowIfWritten.composePoll := by
  show (l.replyCounted size).requestReplyWrite.closeWindowIfWritten.composePoll = _
  rw [Line.requestReplyWrite_nothing (l := l.replyCounted size) (.inr h)]

/-- A write requested anew keeps the window and the record waiting. -/
theorem Line.replyWritten_more (size : Nat) {m : Member PollWork} {ms : List (Member PollWork)} {b : PollBody}
    (hl : l.poll.list = m :: ms) (hb : m.body = .poll b) (ha : l.poll.assembly ≠ [])
    (hwhen : l.poll.hasRoom = false ∨ l.rx.fifo = [] ∨ l.poll.attempt = .settle) :
    l.replyWritten size = { l with poll := { l.poll with
      written := l.poll.written + size
      assembly := []
      outstanding := some
        { address := b.replyAddress + BitVec.ofNat 40 (l.poll.fill - l.poll.assembly.length)
          size := l.poll.assembly.length
          bytes := l.poll.assembly } } } := by
  show (l.replyCounted size).requestReplyWrite.closeWindowIfWritten.composePoll = _
  rw [Line.requestReplyWrite_made (l := l.replyCounted size) hl hb rfl ha hwhen,
    Line.closeWindowIfWritten_not (.inr (.inr (Option.some_ne_none _))),
    Line.composePoll_waits (.inr (.inr (.inr (.inl (Option.some_ne_none _)))))]
  rfl

/-- A completion composed changes the record, not the attempt. -/
theorem Line.composePoll_rest (l : Line) :
    l.composePoll = { l with
      tx := l.composePoll.tx
      poll := { l.poll with
        list := l.composePoll.poll.list, endStatus := l.composePoll.poll.endStatus
        stopFlag := l.composePoll.poll.stopFlag } } := by
  unfold Line.composePoll
  split
  · split <;> rfl
  · rfl

/-- The line whose reply write failed, its record's end decided (06 R122, R123). -/
def Line.replyBroken (l : Line) : Line :=
  { l with
    rx := { l.rx with fifo := [] }
    poll := { l.poll with
      attempt := .settle, window := false, replyTimer := none, gapTimer := none, tail := none, outstanding := none
      assembly := [], endStatus := some (l.poll.endStatus.getD .busError) } }

theorem Line.replyWriteFailed_eq (l : Line) : l.replyWriteFailed = l.replyBroken.composePoll := rfl

end Writes

/-! ### What a reply write's end leaves of the line -/

section WriteEnds

variable {s : State} {n : LineNo} {m : Member PollWork} {ms : List (Member PollWork)} {b : PollBody} {size : Nat}

/-- A reply write that ends OK and completes nothing offers nothing. -/
theorem State.updateLine_replyWritten (h : s.noNewOffers n) {k : Line} (hwritten : (s.line n).replyWritten size = k)
    (hk : k = { s.line n with rx := k.rx, poll := k.poll }) (hlist : k.poll.list = (s.line n).poll.list) :
    s.updateLine n ((s.line n).replyWritten size) = s.setLine n k := by
  rw [hwritten]
  refine State.updateLine_quiet_stream h ?_ ?_ ?_ ?_ hlist
  all_goals rw [hk]

theorem Line.replyWritten_closes {l : Line} (ha : l.poll.attempt = .settle)
    (hwaits : l.poll.endStatus = none ∨ l.tx.outstanding ≠ none) (has : l.poll.assembly = []) (hw : l.poll.window = true) :
    l.replyWritten size = { l with
      rx := { l.rx with fifo := [] }
      poll := { l.poll with outstanding := none, written := l.poll.written + size, window := false } } := by
  have hclose : (l.replyCounted size).closeWindowIfWritten = (l.replyCounted size).closeWindow := if_pos ⟨ha, hw, has, rfl⟩
  rw [Line.replyWritten_last _ has, hclose]
  exact Line.composePoll_waits (hwaits.imp_right fun hr => .inr (.inr (.inr hr)))

theorem Line.replyWritten_closed {l : Line} (hwaits : l.poll.endStatus = none ∨ l.tx.outstanding ≠ none)
    (has : l.poll.assembly = []) (hw : l.poll.window = false) : l.replyWritten size = l.replyCounted size := by
  rw [Line.replyWritten_last _ has, Line.closeWindowIfWritten_not (l := l.replyCounted size) (.inl hw)]
  exact Line.composePoll_waits (hwaits.imp_right fun hr => .inr (.inr (.inr hr)))

/-- The last reply write of a record whose end was decided reports its completion. -/
theorem State.updateLine_replyWritten_reports (h : s.noNewOffers n) (hmode : (s.line n).record.mode = .poll)
    (hl : (s.line n).poll.list = m :: ms) (hb : m.body = .poll b) (ha : (s.line n).poll.attempt = .settle)
    (has : (s.line n).poll.assembly = []) (hr : (s.line n).tx.outstanding = none) {st : Status}
    (he : (s.line n).poll.endStatus = some st) (hnot : .data n ∉ s.backlog.waiting) :
    s.Reports (s.updateLine n ((s.line n).replyWritten size)) (.data n) m.slot
      { status := st, count := BitVec.ofNat 16 ((s.line n).poll.written + size),
        detail := pollDetail ((s.line n).poll.reported st).1 (s.line n).poll.attemptNumber
          ((s.line n).poll.reported st).2 } := by
  have hrest := ((s.line n).replyCounted size).closeWindowIfWritten_rest
  rw [Line.replyWritten_last _ has]
  generalize ((s.line n).replyCounted size).closeWindowIfWritten = k at hrest
  have hlist : k.poll.list = m :: ms := by rw [hrest]; exact hl
  have hattempt : k.poll.attempt = .settle := by rw [hrest]; exact ha
  have hassembly : k.poll.assembly = [] := by rw [hrest]; exact has
  have hwrite : k.poll.outstanding = none := by rw [hrest]; rfl
  have hread : k.tx.outstanding = none := by rw [hrest]; exact hr
  have hend : k.poll.endStatus = some st := by rw [hrest]; exact he
  have hrecord : k.record = (s.line n).record := by rw [hrest]; rfl
  have hcontrol : k.control = (s.line n).control := by rw [hrest]; rfl
  have htx : k.tx.list = (s.line n).tx.list := by rw [hrest]; rfl
  have hresult : k.pollResult st =
      { status := st, count := BitVec.ofNat 16 ((s.line n).poll.written + size),
        detail := pollDetail ((s.line n).poll.reported st).1 (s.line n).poll.attemptNumber
          ((s.line n).poll.reported st).2 } := by
    rw [Line.pollResult_poll st hlist ⟨b, hb⟩, hrest]
    cases st <;> rfl
  rw [Line.composePoll_done hend hattempt hassembly hwrite hread, hresult]
  refine State.updateLine_pollDone (ms := ms) h ?_ ?_ ?_ ?_ hnot
  exacts [hrecord ▸ hmode, hcontrol, htx, congrArg (completedHead _) hlist]

/-- A reply write that fails reports the record's completion. -/
theorem State.updateLine_replyFailed_reports (h : s.noNewOffers n) (hmode : (s.line n).record.mode = .poll)
    (hl : (s.line n).poll.list = m :: ms) (hb : m.body = .poll b) (hr : (s.line n).tx.outstanding = none) {st : Status}
    (hst : (s.line n).poll.endStatus.getD .busError = st) (hnot : .data n ∉ s.backlog.waiting) :
    s.Reports (s.updateLine n (s.line n).replyWriteFailed) (.data n) m.slot
      { status := st, count := BitVec.ofNat 16 (s.line n).poll.written,
        detail := pollDetail ((s.line n).poll.reported st).1 (s.line n).poll.attemptNumber
          ((s.line n).poll.reported st).2 } := by
  have hresult : (s.line n).replyBroken.pollResult st =
      { status := st, count := BitVec.ofNat 16 (s.line n).poll.written,
        detail := pollDetail ((s.line n).poll.reported st).1 (s.line n).poll.attemptNumber
          ((s.line n).poll.reported st).2 } := by
    rw [Line.pollResult_poll (l := (s.line n).replyBroken) st hl ⟨b, hb⟩]
    cases st <;> rfl
  rw [Line.replyWriteFailed_eq,
    Line.composePoll_done (l := (s.line n).replyBroken) (congrArg some hst) rfl rfl rfl hr, hresult]
  refine State.updateLine_pollDone (ms := ms) h ?_ ?_ ?_ ?_ hnot
  exacts [hmode, rfl, rfl, congrArg (completedHead _) hl]

/-- What a reply write that fails leaves of the line, whatever the offers that follow do. -/
theorem State.updateLine_replyFailed_leaves (s : State) (n : LineNo) (hmode : (s.line n).record.mode = .poll) :
    let k := (s.updateLine n (s.line n).replyWriteFailed).line n
    k.poll.window = false ∧ k.rx.fifo = [] ∧ k.poll.replyTimer = none ∧ k.poll.gapTimer = none ∧ k.poll.assembly = [] ∧
    k.poll.outstanding = none ∧ k.rx.lost = (s.line n).rx.lost ∧ k.rx.held = (s.line n).rx.held ∧
    k.state = (s.line n).state ∧ k.event.pending = (s.line n).event.pending := by
  have hrest := (s.line n).replyBroken.composePoll_rest
  rw [← Line.replyWriteFailed_eq] at hrest
  intro k
  have still : (s.line n).replyWriteFailed.EngineStill k :=
    s.updateLine_engineStill n (by rw [hrest]; exact Line.isPoll_of_poll hmode)
  clear_value k
  generalize (s.line n).replyWriteFailed = w at hrest still
  obtain ⟨-, hstate, hrx, hevent, hpoll⟩ := still
  have hwrx : w.rx = { (s.line n).rx with fifo := [] } := (congrArg Line.rx hrest :)
  have hwstate : w.state = (s.line n).state := (congrArg Line.state hrest :)
  have hwevent : w.event = (s.line n).event := (congrArg Line.event hrest :)
  have hkrx := hrx.trans hwrx
  refine ⟨?_, congrArg Receiver.fifo hkrx, ?_, ?_, ?_, ?_, (congrArg Receiver.lost hkrx :), (congrArg Receiver.held hkrx :),
    hstate.trans hwstate, congrArg EventUnit.pending (hevent.trans hwevent)⟩
  · exact (congrArg PollEngine.window hpoll).trans (congrArg (·.poll.window) hrest)
  · exact (congrArg PollEngine.replyTimer hpoll).trans (congrArg (·.poll.replyTimer) hrest)
  · exact (congrArg PollEngine.gapTimer hpoll).trans (congrArg (·.poll.gapTimer) hrest)
  · exact (congrArg PollEngine.assembly hpoll).trans (congrArg (·.poll.assembly) hrest)
  · exact (congrArg PollEngine.outstanding hpoll).trans (congrArg (·.poll.outstanding) hrest)

/-- While a payload read is still outstanding a reply write that fails completes nothing yet. -/
theorem State.updateLine_replyFailed_waits (h : s.noNewOffers n) (hr : (s.line n).tx.outstanding ≠ none) :
    (s.updateLine n (s.line n).replyWriteFailed).line n = (s.line n).replyBroken := by
  have hwaits : (s.line n).replyWriteFailed = (s.line n).replyBroken :=
    Line.composePoll_waits (l := (s.line n).replyBroken) (.inr (.inr (.inr (.inr hr))))
  rw [hwaits, State.updateLine_quiet_stream (k := (s.line n).replyBroken) h rfl rfl rfl rfl rfl, State.line_setLine_same]

end WriteEnds

/-! ### The end of an attempt (06 R119, R120) -/

/-- The line whose attempt's outcome is recorded (06 R121). -/
def Line.attemptOver (l : Line) : Line :=
  { l with poll := { l.poll with lastOutcome := l.poll.outcome, seen := l.poll.seen ||| l.poll.outcome.asSeen } }

/-- The line whose record ends with status `st` after its last attempt. -/
def Line.recordOver (l : Line) (st : Status) : Line :=
  { l.attemptOver with poll := l.attemptOver.poll.decideEnd st }

/-- The attempt is over once its writes have ended: the record completes or retries. -/
theorem Line.attemptEnd_eq {l : Line} {m : Member PollWork} {ms : List (Member PollWork)} {b : PollBody}
    (hl : l.poll.list = m :: ms) (hb : m.body = .poll b) (hm : m.phase = .active) (ha : l.poll.attempt = .settle)
    (he : l.poll.endStatus = none) (ho : l.poll.outcome ≠ .none) (has : l.poll.assembly = [])
    (hw : l.poll.outstanding = none) :
    l.attemptEnd = some
      (if l.poll.outcome = .ok ∨ b.retries < l.poll.attemptNumber then (l.recordOver (finalStatus l.poll.outcome)).composePoll
       else if l.poll.stopFlag = true then (l.recordOver .stopped).composePoll else l.attemptOver.retry) := by
  have hcarrying : l.poll.carrying = true := by
    obtain ⟨slot, phase, body⟩ := m
    cases hm
    simp [PollEngine.carrying, ha, hl, headResult]
  have hhead := PollEngine.headPoll_eq hl hb
  subst hhead
  exact if_pos ⟨ha, hcarrying, he, ho, has, hw⟩

theorem finalStatus_of_failure {o : PollOutcome} (hok : o ≠ .ok) (hstart : o ≠ .noStart) : finalStatus o = .replyError := by
  cases o with
  | ok => exact absurd rfl hok
  | noStart => exact absurd rfl hstart
  | none | addressMismatch | framing | collision | overlong | truncated => rfl

/-- The record that ends with its attempt is reported. -/
theorem State.updateLine_recordOver {s : State} {n : LineNo} (h : s.noNewOffers n) {m : Member PollWork}
    {ms : List (Member PollWork)} {b : PollBody} (hmode : (s.line n).record.mode = .poll)
    (hl : (s.line n).poll.list = m :: ms) (hb : m.body = .poll b) (ha : (s.line n).poll.attempt = .settle)
    (he : (s.line n).poll.endStatus = none) (has : (s.line n).poll.assembly = [])
    (hw : (s.line n).poll.outstanding = none) (hr : (s.line n).tx.outstanding = none) (hnot : .data n ∉ s.backlog.waiting)
    (st : Status) :
    s.Reports (s.updateLine n ((s.line n).recordOver st).composePoll) (.data n) m.slot
      { status := st, count := BitVec.ofNat 16 (s.line n).poll.written,
        detail := pollDetail (((s.line n).recordOver st).poll.reported st).1 (s.line n).poll.attemptNumber
          (((s.line n).recordOver st).poll.reported st).2 } := by
  have hend : ((s.line n).recordOver st).poll.endStatus = some st := congrArg (fun o => some (Option.getD o st)) he
  rw [Line.composePoll_done (l := (s.line n).recordOver st) hend ha has hw hr,
    Line.pollResult_poll (l := (s.line n).recordOver st) st hl ⟨b, hb⟩]
  refine State.updateLine_pollDone (ms := ms) h ?_ ?_ ?_ ?_ hnot
  exacts [hmode, rfl, rfl, congrArg (completedHead _) hl]

/-- Settles O60: the character work, the reply writes, and the end of an attempt. -/
theorem pollRecordEnds : Obligations.PollRecordEnds := by
  refine ⟨fun s n j m ms cts h => ?_, fun s n j m ms cts st ts h => ?_, fun s n m ms b h => ?_⟩
  · intro l hmode hj hstation hl hactive hsend hnot hs he hend ha ho hr hlast
    have hsent := Line.characterSent_eq cts hs hj he
    rw [if_pos (by simpa [TxJob.characters, hstation] using hlast), Line.lastCharacterSent, hstation] at hsent
    obtain ⟨⟨hde, hidle, hmark, hhunt⟩, hreports⟩ := State.updateLine_workEnded
      (l := { l with tx := { l.tx with sent := l.tx.sent + 1, cts } }) h .ok .send hmode rfl rfl hl ha ho hr hnot
    have hjob := s.updateLine_workEnded_job n (l := { l with tx := { l.tx with sent := l.tx.sent + 1, cts } }) .ok .send
      (Line.isPoll_of_poll hmode) ha ho hr
    rw [hend, Line.pollHalted_sendResult (l := { l with tx := { l.tx with sent := l.tx.sent + 1, cts } }) _ _ _ hl hsend] at hreports
    exact ⟨_, exec_onLine_some (f := Line.characterSent cts) rfl hsent, hde, hidle, hmark, hjob, hhunt, hreports⟩
  · intro l p hmode hj hl hactive hnot hs he ha ho hr status ends
    have hsent := Line.characterSent_decided cts hs hj he
    obtain ⟨⟨hde, hidle, hmark, hhunt⟩, hreports⟩ := State.updateLine_workEnded
      (l := { l with tx := { l.tx with sent := l.tx.sent + 1, cts } }) h st ts hmode rfl rfl hl ha ho hr hnot
    have hjob := s.updateLine_workEnded_job n (l := { l with tx := { l.tx with sent := l.tx.sent + 1, cts } }) st ts
      (Line.isPoll_of_poll hmode) ha ho hr
    have ends_of {r : Result} (hresult : (Line.pollHalted { l with tx := { l.tx with sent := l.tx.sent + 1, cts } } st ts).pollResult
        status = r) : ends r := by
      subst hresult
      exact ⟨_, exec_onLine_some (f := Line.characterSent cts) rfl hsent, hde, hidle, hmark, hjob, hhunt, hreports⟩
    have hpolled (hpoll : ∃ b, m.body = .poll b) := Line.pollHalted_pollResult
      (l := { l with tx := { l.tx with sent := l.tx.sent + 1, cts } }) st status ts hl hpoll
    refine ⟨fun hsend => ends_of ?_, fun hpoll => ⟨fun hstatus => ends_of ?_, fun hstatus => ends_of ?_⟩⟩
    · exact Line.pollHalted_sendResult (l := { l with tx := { l.tx with sent := l.tx.sent + 1, cts } }) st status ts hl hsend
    · rw [hpolled hpoll, hstatus]
      rfl
    · rw [hpolled hpoll]
      rcases hstatus with hstatus | hstatus <;> rw [hstatus] <;> rfl
  · intro l p hmode hl hactive hb hnot hattempt seen reports
    have hp := Line.isPoll_of_poll hmode
    have hroom : p.hasRoom = true ↔ _ := PollEngine.hasRoom_iff hl hb
    refine ⟨fun t htransfer hkind => ?_, fun ha he ho has hw => ⟨fun hfail hmore hstop => ?_, fun hr => ?_⟩,
      fun hn => exec_onLine_none (f := Line.attemptEnd) rfl (if_neg ?_)⟩
    · have hquiet : s.transferOver.noNewOffers n := h
      have hok := exec_replyWriteEnd_ok htransfer hkind
      have hbus := exec_replyWriteEnd_busError htransfer hkind
      intro written
      have quiet {k : Line} (hwritten : l.replyWritten t.extent.size = k) (hk : k = { l with rx := k.rx, poll := k.poll })
          (hlist : k.poll.list = p.list) : exec (.replyWriteEnd n .ok) s = .next (s.transferOver.setLine n k) :=
        hok.trans (congrArg _ (State.updateLine_replyWritten (s := s.transferOver) hquiet hwritten hk hlist))
      have opens (ha : p.attempt ≠ .settle) : exec (.replyWriteEnd n .ok) s =
          .next (s.transferOver.setLine n (l.replyCounted t.extent.size).requestReplyWrite) := by
        refine quiet (Line.replyWritten_open _ ha) ?_ ?_ <;> rw [Line.requestReplyWrite_rest] <;> rfl
      have completes {st : Status} (ha : p.attempt = .settle) (has : p.assembly = []) (hr : l.tx.outstanding = none)
          (he : p.endStatus = some st) :
          reports (.replyWriteEnd n .ok) st written (p.reported st).1 (p.reported st).2 :=
        ⟨_, hok, State.updateLine_replyWritten_reports (s := s.transferOver) hquiet hmode hl hb ha has hr he hnot⟩
      have breaks {st : Status} (hr : l.tx.outstanding = none) (hst : p.endStatus.getD .busError = st) :
          reports (.replyWriteEnd n .busError) st p.written (p.reported st).1 (p.reported st).2 :=
        ⟨_, hbus, State.updateLine_replyFailed_reports (s := s.transferOver) hquiet hmode hl hb hr hst hnot⟩
      refine ⟨opens, fun ha hwaits has => ⟨fun hw => ?_, fun hw => ?_⟩, ?_, fun ha has hr => ⟨fun he => ?_, fun he => ?_⟩,
        fun he hr => ?_, fun hr st he hst => ?_, _, hbus, ?_⟩
      · exact quiet (Line.replyWritten_closes ha hwaits has hw) rfl rfl
      · exact quiet (Line.replyWritten_closed hwaits has hw) rfl rfl
      · intro room becomes
        have hfull : p.hasRoom = false ↔ ¬ room := by rw [← Bool.not_eq_true, hroom]
        refine ⟨fun ha hwhen => (opens ha).trans (congrArg _ (congrArg _ ?_)), fun has hwhen =>
          quiet (Line.replyWritten_more _ hl hb has (hwhen.imp_left hfull.mpr)) rfl rfl⟩
        refine Line.requestReplyWrite_not fun ⟨_, hassembled, hcan⟩ => ?_
        rcases hwhen with hempty | ⟨hfree, hstaged⟩
        · exact hassembled hempty
        · rcases hcan with hcan | hcan | hcan
          · exact hfull.mp hcan hfree
          · exact hstaged hcan
          · exact ha hcan
      · exact completes ha has hr he
      · exact completes ha has hr he
      · exact breaks hr (by rw [he]; rfl)
      · have hbreak := breaks hr (show p.endStatus.getD .busError = st by rw [he]; rfl)
        rcases hst with rfl | rfl <;> exact hbreak
      · obtain ⟨hwindow, hfifo, hreply, hgap, hassembly, hwrite, hlost, hheld, hstate, hpending⟩ :=
          s.transferOver.updateLine_replyFailed_leaves n hmode
        refine ⟨hwindow, hfifo, hreply, hgap, hassembly, hwrite, hlost, hheld, hstate, hpending, fun hr => ?_⟩
        have hwaits : (s.transferOver.updateLine n (s.line n).replyWriteFailed).line n = l.replyBroken :=
          State.updateLine_replyFailed_waits (s := s.transferOver) hquiet hr
        rw [hwaits]
        exact ⟨rfl, rfl, rfl⟩
    · have hend := Line.attemptEnd_eq hl hb hactive ha he ho has hw
      rw [if_neg (fun hc => hc.elim hfail (Nat.not_lt.mpr hmore)), if_neg (Bool.eq_false_iff.mp hstop)] at hend
      exact exec_onLine_quiet (f := Line.attemptEnd) h rfl hend rfl rfl rfl rfl rfl
    · have hend := Line.attemptEnd_eq hl hb hactive ha he ho has hw
      have reports_of {st : Status} {last : PollOutcome} (hover : l.attemptEnd = some (l.recordOver st).composePoll)
          (hlast : (l.recordOver st).poll.reported st = (last, seen)) : reports (.attemptEnd n) st p.written last seen := by
        have hreports := State.updateLine_recordOver h hmode hl hb ha he has hw hr hnot st
        rw [hlast] at hreports
        exact ⟨_, exec_onLine_some (f := Line.attemptEnd) rfl hover, hreports⟩
      refine ⟨fun hfail hmore hstop => reports_of ?_ rfl, fun hok => reports_of ?_ (congrArg (·, seen) hok),
        fun hmore hstart => reports_of ?_ (congrArg (·, seen) hstart), fun hmore hfail hstart => reports_of ?_ rfl⟩
      · rw [hend, if_neg (fun hc => hc.elim hfail (Nat.not_lt.mpr hmore)), if_pos hstop]
      · rw [hend, if_pos (.inl hok), show l.poll.outcome = .ok from hok, finalStatus]
      · rw [hend, if_pos (.inr hmore), show l.poll.outcome = .noStart from hstart, finalStatus]
      · rw [hend, if_pos (.inr hmore), finalStatus_of_failure hfail hstart]
    · rintro ⟨ha, -, -, ho, has, hw⟩
      rcases hn with hn | hn | hn | hn
      · exact hn ha
      · exact ho hn
      · exact hn has
      · exact hn hw

end Sys2Proof.Machine
